-- ==== Sys2Proof/Word.lean ====
section
/-! DEFINITION. The words of the block and the names the spec gives its parts: directions, interrupt
vectors, fault codes, host registers. -/

namespace Sys2Proof

/-- A 16-bit operation word (R70). -/
abbrev Word := BitVec 16

/-- The 8 data bits D of an operation word, and one stored byte of a trace (R70, R81). -/
abbrev Byte := BitVec 8

/-- A 4-bit host register address (R50). -/
abbrev HostAddr := BitVec 4

/-- The 32-bit value of a host read (R51). -/
abbrev RegVal := BitVec 32

/-- DIRECTION's two values (R22). -/
inductive Direction where
  | left
  | right
  deriving DecidableEq, Repr

/-- The four interrupt sources in the order of their vector numbers (R204). -/
inductive IrqVector where
  | ms
  | tim
  | btnl
  | btnr
  deriving DecidableEq, Repr

/-- The five model faults (R201). -/
inductive FaultCode where
  | illegalOpcode
  | reservedAddress
  | readOnlyWrite
  | writeOnlyRead
  | reservedField
  deriving DecidableEq, Repr

/-- The thirteen host registers (R38). -/
inductive HostReg where
  | pos
  | dir
  | status
  | speed
  | ctrl
  | mscnt
  | tcnt
  | treload
  | led
  | ledset
  | ledclr
  | snap
  | pins
  deriving DecidableEq, Repr

end Sys2Proof
end

