-- ==== Sys2Proof/Config.lean ====
section
/-! DEFINITION. What the spec fixes for the block (R6) and the parameters it leaves `OPEN` (R6, R56). -/

namespace Sys2Proof

/-- `LED_TABLE`: 16 DISTINCT physical line identifiers, position 0 first (R6, R31). The default only shows
that there is such a table; nothing reads it. An identifier is a natural number (log 16). -/
structure LedTable where
  lines : Vector Nat 16 := Vector.range 16
  distinct : lines.toList.Nodup := by decide
  deriving DecidableEq, Repr, Inhabited

/-- The `OPEN` parameters, plain data: every claim about all states is a claim about all of them.
DESIGN CHOICE (log 3, log 16). -/
structure Params where
  /-- `RELOAD(l)`, level 0 first (R6). -/
  reloadTable : Vector (BitVec 32) 4
  /-- `LED_TABLE` (R6, R31). -/
  ledTable : LedTable
  /-- `F_TCLK`; enters no rule (R6). -/
  fTclk : Nat
  /-- `DEBOUNCE_DELAY`; enters no rule (R6). -/
  debounceDelay : Nat
  /-- `HOST_BASE`; enters no rule (R56). -/
  hostBase : Nat
  deriving DecidableEq, Repr, Inhabited

/-- The platform's parameters, which no source gives: no body, so no proof sees a value (log 3). -/
opaque Config.params : Params

/-- `N_POS` ring positions (R6). -/
def Config.nPos : Nat := 16

/-- `N_SPEED` speed levels (R6). -/
def Config.nSpeed : Nat := 4

/-- `N_BTN` buttons (R6). -/
def Config.nBtn : Nat := 2

/-- `N_IRQ` interrupt sources (R6). -/
def Config.nIrq : Nat := 4

end Sys2Proof
end

