-- ==== Sys2Proof/Syntax.lean ====
section
/-! DEFINITION. The operations of the block: one constructor per row of spec/opcode_table.json. -/

namespace Sys2Proof

/-- The 21 legal operation words (R76) and the four service steps, which have a vector number and no
word (R75). An operand `d` is the whole data byte D of the word (R70, R72). -/
inductive Instr where
  /-- MSTICK (R100) -/
  | mstick
  /-- TCLK (R101) -/
  | tclk
  /-- PINL (R102) -/
  | pinl (d : Byte)
  /-- PINR (R103) -/
  | pinr (d : Byte)
  /-- RD POS (R153) -/
  | rdPos
  /-- RD DIR (R154) -/
  | rdDir
  /-- RD STATUS (R155) -/
  | rdStatus
  /-- RD SPEED (R157) -/
  | rdSpeed
  /-- RD CTRL (R159) -/
  | rdCtrl
  /-- RD MSCNT (R161) -/
  | rdMscnt
  /-- RD TCNT (R162) -/
  | rdTcnt
  /-- RD TRELOAD (R163) -/
  | rdTreload
  /-- RD LED (R164) -/
  | rdLed
  /-- RD SNAP (R167) -/
  | rdSnap
  /-- RD PINS (R168) -/
  | rdPins
  /-- WR STATUS (R156) -/
  | wrStatus (d : Byte)
  /-- WR SPEED (R158) -/
  | wrSpeed (d : Byte)
  /-- WR CTRL (R160) -/
  | wrCtrl (d : Byte)
  /-- WR LEDSET (R165) -/
  | wrLedset (d : Byte)
  /-- WR LEDCLR (R166) -/
  | wrLedclr (d : Byte)
  /-- RESET (R104) -/
  | reset
  /-- SVC_MS, vector 0 (R124) -/
  | svcMs
  /-- SVC_TIM, vector 1 (R125) -/
  | svcTim
  /-- SVC_BTNL, vector 2 (R126) -/
  | svcBtnl
  /-- SVC_BTNR, vector 3 (R127) -/
  | svcBtnr
  deriving DecidableEq, Repr

end Sys2Proof
end

