-- ==== Sys2Proof/WellFormed.lean ====
section
/-! DEFINITION. The constraint of R72 on an operation's data byte, as a bound on its value: the unused
bits are the high ones, so they are 0 exactly below the bound. -/

namespace Sys2Proof

/-- One past the largest legal data byte of a form (R72): PINL, PINR and WR STATUS use D[0], WR SPEED
D[1:0], WR CTRL D[4:0], WR LEDSET and WR LEDCLR D[3:0]. Forms with no operand have no constraint here. -/
def WellFormed : Instr → Bool
  | .pinl d => d.toNat < 2
  | .pinr d => d.toNat < 2
  | .wrStatus d => d.toNat < 2
  | .wrSpeed d => d.toNat < 4
  | .wrCtrl d => d.toNat < 32
  | .wrLedset d => d.toNat < 16
  | .wrLedclr d => d.toNat < 16
  | .mstick => true
  | .tclk => true
  | .rdPos => true
  | .rdDir => true
  | .rdStatus => true
  | .rdSpeed => true
  | .rdCtrl => true
  | .rdMscnt => true
  | .rdTcnt => true
  | .rdTreload => true
  | .rdLed => true
  | .rdSnap => true
  | .rdPins => true
  | .reset => true
  | .svcMs => true
  | .svcTim => true
  | .svcBtnl => true
  | .svcBtnr => true

end Sys2Proof
end

