-- ==== Sys2Proof/Decode.lean ====
section
/-! DEFINITION. Decoding by the check order of R77 and the map of R71 to R73, the opcode map of R76 as a
table, the encoder, and the storage of a trace as bytes (R81). -/

namespace Sys2Proof

/-! ## The fields of a word (R70) -/

def opField (w : Word) : BitVec 4 := w.extractLsb' 12 4

def addrField (w : Word) : HostAddr := w.extractLsb' 8 4

def dataField (w : Word) : Byte := w.extractLsb' 0 8

/-- RD and WR are the host's words (R71); R150 holds them while a request is pending. A malformed word
is classed by its OP field too. DEDUCED (log 7). -/
def isHostWord (w : Word) : Bool := opField w == 0x5#4 || opField w == 0x6#4

/-! ## Names and numbers -/

/-- The code number of a fault (R201). -/
def FaultCode.number : FaultCode → Nat
  | .illegalOpcode => 1
  | .reservedAddress => 2
  | .readOnlyWrite => 3
  | .writeOnlyRead => 4
  | .reservedField => 5

/-- The vector number (R204). -/
def IrqVector.number : IrqVector → BitVec 2
  | .ms => 0
  | .tim => 1
  | .btnl => 2
  | .btnr => 3

/-- The host address of a register (R38). -/
def HostReg.addr : HostReg → HostAddr
  | .pos => 0x0
  | .dir => 0x1
  | .status => 0x2
  | .speed => 0x3
  | .ctrl => 0x4
  | .mscnt => 0x5
  | .tcnt => 0x6
  | .treload => 0x7
  | .led => 0x8
  | .ledset => 0x9
  | .ledclr => 0xA
  | .snap => 0xB
  | .pins => 0xC

/-- All thirteen registers, in address order (R38). -/
def HostReg.all : List HostReg :=
  [.pos, .dir, .status, .speed, .ctrl, .mscnt, .tcnt, .treload, .led, .ledset, .ledclr, .snap, .pins]

/-- The register at a host address; none at the reserved addresses 0xD to 0xF (R38, R73). -/
def HostReg.ofAddr (a : HostAddr) : Option HostReg := HostReg.all[a.toNat]?

/-- The data bits a write to the register must have 0 (R72, R73). A register that cannot be written
has no free bit. -/
def HostReg.reservedData : HostReg → Byte
  | .status => 0xFE
  | .speed => 0xFC
  | .ctrl => 0xE0
  | .ledset => 0xF0
  | .ledclr => 0xF0
  | _ => 0xFF

/-- The data bits PINL and PINR must have 0 (R72). -/
def pinReservedData : Byte := 0xFE

/-! ## Decoding -/

/-- What a word decodes to: an operation, or the one fault it reports (R202). -/
inductive Decoded where
  | instr (i : Instr)
  | reject (c : FaultCode)
  deriving DecidableEq, Repr

/-- The read of a register; none for the write-only ones (R73). -/
def readForm : HostReg → Option Instr
  | .pos => some .rdPos
  | .dir => some .rdDir
  | .status => some .rdStatus
  | .speed => some .rdSpeed
  | .ctrl => some .rdCtrl
  | .mscnt => some .rdMscnt
  | .tcnt => some .rdTcnt
  | .treload => some .rdTreload
  | .led => some .rdLed
  | .ledset => none
  | .ledclr => none
  | .snap => some .rdSnap
  | .pins => some .rdPins

/-- The write of a byte to a register; none for the read-only ones (R73). -/
def writeForm (d : Byte) : HostReg → Option Instr
  | .status => some (.wrStatus d)
  | .speed => some (.wrSpeed d)
  | .ctrl => some (.wrCtrl d)
  | .ledset => some (.wrLedset d)
  | .ledclr => some (.wrLedclr d)
  | .pos => none
  | .dir => none
  | .mscnt => none
  | .tcnt => none
  | .treload => none
  | .led => none
  | .snap => none
  | .pins => none

/-- An event without operand: A and D must be 0 (R72; R77 checks 2 and 6). -/
def decodeEvent (i : Instr) (a : HostAddr) (d : Byte) : Decoded :=
  if a = 0 ∧ d = 0 then .instr i else .reject .reservedField

/-- A pin event: A and D[7:1] must be 0 (R72; R77 checks 2 and 6). -/
def decodePin (i : Instr) (a : HostAddr) (d : Byte) : Decoded :=
  if a = 0 ∧ d &&& pinReservedData = 0 then .instr i else .reject .reservedField

/-- RD: reserved address, then write-only register, then a nonzero D (R77 checks 3, 5, 6). -/
def decodeRead (a : HostAddr) (d : Byte) : Decoded :=
  match HostReg.ofAddr a with
  | none => .reject .reservedAddress
  | some r =>
    match readForm r with
    | none => .reject .writeOnlyRead
    | some i => if d = 0 then .instr i else .reject .reservedField

/-- WR: reserved address, then read-only register, then a nonzero unused bit of D (R77 checks 3, 4, 6). -/
def decodeWrite (a : HostAddr) (d : Byte) : Decoded :=
  match HostReg.ofAddr a with
  | none => .reject .reservedAddress
  | some r =>
    match writeForm d r with
    | none => .reject .readOnlyWrite
    | some i => if d &&& r.reservedData = 0 then .instr i else .reject .reservedField

/-- The decoding of one operation word, which depends on the word alone (R71, R77, R78). -/
def decodeWord (w : Word) : Decoded :=
  let op := opField w
  let a := addrField w
  let d := dataField w
  if op = 0x1 then decodeEvent .mstick a d
  else if op = 0x2 then decodeEvent .tclk a d
  else if op = 0x3 then decodePin (.pinl d) a d
  else if op = 0x4 then decodePin (.pinr d) a d
  else if op = 0x5 then decodeRead a d
  else if op = 0x6 then decodeWrite a d
  else if op = 0x7 then decodeEvent .reset a d
  else .reject .illegalOpcode

/-- The service step of a vector (R75, R204). -/
def serviceInstr : IrqVector → Instr
  | .ms => .svcMs
  | .tim => .svcTim
  | .btnl => .svcBtnl
  | .btnr => .svcBtnr

/-- The service step of a 2-bit vector number (R75). -/
def decodeVector (v : BitVec 2) : Instr :=
  if v = 0 then .svcMs else if v = 1 then .svcTim else if v = 2 then .svcBtnl else .svcBtnr

/-- How an operation is named: by an operation word, or, for a service step, by a vector number that no
trace can contain (R75). -/
inductive Code where
  | word (w : Word)
  | vector (v : BitVec 2)
  deriving DecidableEq, Repr

def decode : Code → Decoded
  | .word w => decodeWord w
  | .vector v => .instr (decodeVector v)

/-! ## The opcode map (R76) -/

/-- One row of R76's table: a word belongs to it when `word &&& mask = pattern`. -/
structure MapRow where
  pattern : Word
  mask : Word
  deriving DecidableEq, Repr

/-- The 21 rows of R76, in the spec's order. -/
def opcodeMap : List MapRow :=
  [⟨0x1000, 0xFFFF⟩, ⟨0x2000, 0xFFFF⟩, ⟨0x3000, 0xFFFE⟩, ⟨0x4000, 0xFFFE⟩] ++
  [⟨0x5000, 0xFFFF⟩, ⟨0x5100, 0xFFFF⟩, ⟨0x5200, 0xFFFF⟩, ⟨0x5300, 0xFFFF⟩, ⟨0x5400, 0xFFFF⟩,
   ⟨0x5500, 0xFFFF⟩, ⟨0x5600, 0xFFFF⟩, ⟨0x5700, 0xFFFF⟩, ⟨0x5800, 0xFFFF⟩, ⟨0x5B00, 0xFFFF⟩,
   ⟨0x5C00, 0xFFFF⟩] ++
  [⟨0x6200, 0xFFFE⟩, ⟨0x6300, 0xFFFC⟩, ⟨0x6400, 0xFFE0⟩, ⟨0x6900, 0xFFF0⟩, ⟨0x6A00, 0xFFF0⟩,
   ⟨0x7000, 0xFFFF⟩]

def MapRow.holds (r : MapRow) (w : Word) : Bool := w &&& r.mask == r.pattern

/-- The row of R76 that an operation's words belong to; a service step has none (R75). -/
def Instr.mapRow : Instr → Option MapRow
  | .mstick => some ⟨0x1000, 0xFFFF⟩
  | .tclk => some ⟨0x2000, 0xFFFF⟩
  | .pinl _ => some ⟨0x3000, 0xFFFE⟩
  | .pinr _ => some ⟨0x4000, 0xFFFE⟩
  | .rdPos => some ⟨0x5000, 0xFFFF⟩
  | .rdDir => some ⟨0x5100, 0xFFFF⟩
  | .rdStatus => some ⟨0x5200, 0xFFFF⟩
  | .rdSpeed => some ⟨0x5300, 0xFFFF⟩
  | .rdCtrl => some ⟨0x5400, 0xFFFF⟩
  | .rdMscnt => some ⟨0x5500, 0xFFFF⟩
  | .rdTcnt => some ⟨0x5600, 0xFFFF⟩
  | .rdTreload => some ⟨0x5700, 0xFFFF⟩
  | .rdLed => some ⟨0x5800, 0xFFFF⟩
  | .rdSnap => some ⟨0x5B00, 0xFFFF⟩
  | .rdPins => some ⟨0x5C00, 0xFFFF⟩
  | .wrStatus _ => some ⟨0x6200, 0xFFFE⟩
  | .wrSpeed _ => some ⟨0x6300, 0xFFFC⟩
  | .wrCtrl _ => some ⟨0x6400, 0xFFE0⟩
  | .wrLedset _ => some ⟨0x6900, 0xFFF0⟩
  | .wrLedclr _ => some ⟨0x6A00, 0xFFF0⟩
  | .reset => some ⟨0x7000, 0xFFFF⟩
  | .svcMs => none
  | .svcTim => none
  | .svcBtnl => none
  | .svcBtnr => none

/-! ## Encoding -/

/-- A word of an OP, an address and a data byte (R70). -/
def makeWord (op : BitVec 4) (a : HostAddr) (d : Byte) : Word := op ++ a ++ d

/-- The word of a pin event (R102, R103). -/
def pinWord (op : BitVec 4) (d : Byte) : Word := makeWord op 0 d

/-- The word of a host read: 0x5000 | A<<8 (R151). -/
def readWord (r : HostReg) : Word := makeWord 0x5 r.addr 0

/-- The word of a host write: 0x6000 | A<<8 | D (R152). -/
def writeWord (r : HostReg) (d : Byte) : Word := makeWord 0x6 r.addr d

/-- The code of an operation, from the syntax of R79 and the vector numbers of R75. -/
def encode : Instr → Code
  | .mstick => .word (makeWord 0x1 0 0)
  | .tclk => .word (makeWord 0x2 0 0)
  | .pinl d => .word (pinWord 0x3 d)
  | .pinr d => .word (pinWord 0x4 d)
  | .rdPos => .word (readWord .pos)
  | .rdDir => .word (readWord .dir)
  | .rdStatus => .word (readWord .status)
  | .rdSpeed => .word (readWord .speed)
  | .rdCtrl => .word (readWord .ctrl)
  | .rdMscnt => .word (readWord .mscnt)
  | .rdTcnt => .word (readWord .tcnt)
  | .rdTreload => .word (readWord .treload)
  | .rdLed => .word (readWord .led)
  | .rdSnap => .word (readWord .snap)
  | .rdPins => .word (readWord .pins)
  | .wrStatus d => .word (writeWord .status d)
  | .wrSpeed d => .word (writeWord .speed d)
  | .wrCtrl d => .word (writeWord .ctrl d)
  | .wrLedset d => .word (writeWord .ledset d)
  | .wrLedclr d => .word (writeWord .ledclr d)
  | .reset => .word (makeWord 0x7 0 0)
  | .svcMs => .vector IrqVector.ms.number
  | .svcTim => .vector IrqVector.tim.number
  | .svcBtnl => .vector IrqVector.btnl.number
  | .svcBtnr => .vector IrqVector.btnr.number

/-! ## A trace as bytes (R81) -/

/-- One word from its two stored bytes, low byte first. -/
def wordOfBytes (lo hi : Byte) : Word := hi ++ lo

/-- The two stored bytes of a word, low byte first. -/
def bytesOfWord (w : Word) : List Byte := [w.extractLsb' 0 8, w.extractLsb' 8 8]

/-- A trace read from bytes; a byte file of odd length is refused (R81). -/
def readTrace : List Byte → Option (List Word)
  | [] => some []
  | [_] => none
  | lo :: hi :: rest => (readTrace rest).map (wordOfBytes lo hi :: ·)

/-- A trace stored as bytes (R81). -/
def storeTrace (ws : List Word) : List Byte := ws.flatMap bytesOfWord

/-- The outcome of decoding from bytes: one word's decoding and the bytes after it, or the reason there
is none. -/
inductive ByteDecoded where
  | decoded (r : Decoded) (rest : List Byte)
  /-- No byte is left. -/
  | endOfTrace
  /-- One byte is left: a byte file of odd length is malformed (R81). -/
  | halfWord
  deriving DecidableEq, Repr

/-- Decoding the next word of a stored trace, total on any bytes. -/
def decodeBytes : List Byte → ByteDecoded
  | [] => .endOfTrace
  | [_] => .halfWord
  | lo :: hi :: rest => .decoded (decodeWord (wordOfBytes lo hi)) rest

/-- The operation the decoder reads from a row's bits as spec/opcode_table.json numbers them: a row of 16
bits is an operation word, laid out low byte first; a row of at most 8 bits is a vector number (format
VEC of R75). DESIGN CHOICE (log 10). -/
def decodeTableWord (nbits w : Nat) : Option Instr :=
  if nbits ≤ 8 then
    if w < 4 then some (decodeVector (BitVec.ofNat 2 w)) else none
  else if w < 0x10000 then
    match decodeBytes [BitVec.ofNat 8 w, BitVec.ofNat 8 (w / 256)] with
    | .decoded (.instr i) _ => some i
    | _ => none
  else none

end Sys2Proof
end

