-- ==== Sys2Proof/Machine/State.lean ====
section
/-! DEFINITION. The machine's state (R20), the reasons a step stops, and the state after reset (R37). -/

namespace Sys2Proof.Machine

/-- What FAULT holds: the fault code and the operation word that caused it (R34, R201). -/
structure FaultRecord where
  code : FaultCode
  word : Word
  deriving DecidableEq, Repr

/-- Whose turn it is at a point where both a service step and an operation word are enabled (R122,
R131). DESIGN CHOICE (log 2). -/
inductive Turn where
  | service
  | word
  deriving DecidableEq, Repr

/-- The reasons no next state is answered. Each is a state in which the spec enables no step (or not
this step): the block itself has no trap (R200). -/
inductive Fault where
  /-- FAULT is set: no step of any agent is enabled (R203). Raised by every operation and by `step`.
  Safe: the spec itself stops here. -/
  | faulted (r : FaultRecord)
  /-- No word is left and no request is pending: no step is enabled, the run has ended (R131, R132).
  Raised by `step`. Safe: the spec gives no step here (log 5). -/
  | runEnded
  /-- A host word while a request is pending is held (R150). Raised by the RD and WR operations; `step`
  services the request instead and never answers this. Safe (log 6). -/
  | hostWordHeld
  /-- A service step whose vector the arbiter does not choose is not enabled (R121, R122). Raised by the
  four service steps; `step` never answers this. Safe (log 6). -/
  | serviceNotSelected (v : IrqVector)
  deriving DecidableEq, Repr

/-- The reasons an operation has no meaning in the model. -/
inductive Refusal where
  /-- Raised by an arm of `exec` whose operation has no meaning yet; no arm does so. Safe. -/
  | notModelled (mnemonic : String)
  deriving DecidableEq, Repr

/-- The fields of R20, then the model's own three. -/
@[ext]
structure State where
  /-- POSITION (R21) -/
  position : BitVec 4
  /-- DIRECTION (R22) -/
  direction : Direction
  /-- SPEED_LEVEL (R23) -/
  speedLevel : BitVec 2
  /-- ROLLOVER (R24) -/
  rollover : Bool
  /-- MSCNT (R25) -/
  mscnt : BitVec 32
  /-- MS_PEND (R26) -/
  msPend : Bool
  /-- TIM_PEND (R26) -/
  timPend : Bool
  /-- BTNL_PEND (R26) -/
  btnlPend : Bool
  /-- BTNR_PEND (R26) -/
  btnrPend : Bool
  /-- MS_EN (R27) -/
  msEn : Bool
  /-- TIM_IE (R27) -/
  timIe : Bool
  /-- TIM_CEN (R27) -/
  timCen : Bool
  /-- BTNL_IE (R27) -/
  btnlIe : Bool
  /-- BTNR_IE (R27) -/
  btnrIe : Bool
  /-- TCNT (R28) -/
  tcnt : BitVec 32
  /-- TRELOAD (R28) -/
  treload : BitVec 32
  /-- LVL_L, true when 1 = released (R29) -/
  lvlL : Bool
  /-- LVL_R, true when 1 = released (R29) -/
  lvlR : Bool
  /-- LED (R30) -/
  led : BitVec 16
  /-- IP (R32) -/
  ip : Nat
  /-- HLOG, oldest first (R33) -/
  hlog : List (HostAddr × RegVal)
  /-- FAULT (R34) -/
  fault : Option FaultRecord
  /-- The words of the trace, the word at index IP being next (R70); the model's own (log 1). -/
  trace : List Word
  /-- The turns taken at the coming choice points, then always a service step (R131, R133); the
  model's own (log 2). -/
  schedule : List Turn
  /-- The `OPEN` parameters (R6); the model's own (log 3). -/
  params : Params
  deriving DecidableEq, Repr

/-- `RELOAD(l)` (R6, R28). -/
def State.reload (s : State) (l : BitVec 2) : BitVec 32 := s.params.reloadTable.get l.toFin

/-- The reset state: the table of R37, IP 0, HLOG empty and FAULT none (R230). No trace is loaded and
no turn is chosen (log 1, log 2). -/
def State.reset : State where
  position := 0
  direction := .left
  speedLevel := 0
  rollover := false
  mscnt := 0
  msPend := false
  timPend := false
  btnlPend := false
  btnrPend := false
  msEn := false
  timIe := false
  timCen := false
  btnlIe := false
  btnrIe := false
  tcnt := 0
  treload := Config.params.reloadTable.get 0
  lvlL := true
  lvlR := true
  led := 0x0000
  ip := 0
  hlog := []
  fault := none
  trace := []
  schedule := []
  params := Config.params

end Sys2Proof.Machine
end

