-- ==== Sys2Proof/Machine/Operands.lean ====
section
/-! DEFINITION. Operand forms: the fields an operation takes from its data byte (R74), the read layout of
each host register (R39 to R48), and the lines the LED image drives (R30). -/

namespace Sys2Proof.Machine

/-! ## The data byte -/

/-- PINL and PINR: the level is D[0], 1 = released (R102, R103). -/
def levelOperand (d : Byte) : Bool := d.getLsbD 0

/-- STATUS: D[0] is the clear mask (R156). -/
def clearOperand (d : Byte) : Bool := d.getLsbD 0

/-- SPEED: D[1:0] is the level (R158). -/
def speedOperand (d : Byte) : BitVec 2 := d.extractLsb' 0 2

/-- LEDSET and LEDCLR: D[3:0] is the position (R165, R166). -/
def positionOperand (d : Byte) : BitVec 4 := d.extractLsb' 0 4

/-- Whether D breaks no constraint of a pin event (R72). -/
def pinDataOk (d : Byte) : Bool := d &&& pinReservedData == 0

/-- Whether D breaks no constraint of a write of the register (R72). -/
def writeDataOk (r : HostReg) (d : Byte) : Bool := d &&& r.reservedData == 0

/-! ## Read layouts -/

/-- DIRECTION as a bit, LEFT = 0 and RIGHT = 1 (R8, R22). -/
def directionBit : Direction → BitVec 1
  | .left => 0
  | .right => 1

/-- A layout's value zero-extended to the 32 bits of a read (R51). -/
def zext {n : Nat} (v : BitVec n) : RegVal := v.setWidth 32

/-- POS (R39, R153). -/
def posValue (s : State) : RegVal := zext s.position

/-- DIR (R40, R154). -/
def dirValue (s : State) : RegVal := zext (directionBit s.direction)

/-- STATUS: BTNR_PEND, BTNL_PEND, TIM_PEND, MS_PEND, ROLLOVER from bit 4 down (R41, R155). -/
def statusValue (s : State) : RegVal :=
  zext (BitVec.ofBool s.btnrPend ++ BitVec.ofBool s.btnlPend ++ BitVec.ofBool s.timPend
    ++ BitVec.ofBool s.msPend ++ BitVec.ofBool s.rollover)

/-- SPEED (R42, R157). -/
def speedValue (s : State) : RegVal := zext s.speedLevel

/-- CTRL: BTNR_IE, BTNL_IE, TIM_CEN, TIM_IE, MS_EN from bit 4 down (R43, R159). -/
def ctrlValue (s : State) : RegVal :=
  zext (BitVec.ofBool s.btnrIe ++ BitVec.ofBool s.btnlIe ++ BitVec.ofBool s.timCen
    ++ BitVec.ofBool s.timIe ++ BitVec.ofBool s.msEn)

/-- MSCNT (R44, R161). -/
def mscntValue (s : State) : RegVal := s.mscnt

/-- TCNT (R45, R162). -/
def tcntValue (s : State) : RegVal := s.tcnt

/-- TRELOAD (R45, R163). -/
def treloadValue (s : State) : RegVal := s.treload

/-- LED (R46, R164). -/
def ledValue (s : State) : RegVal := zext s.led

/-- SNAP: SPEED_LEVEL, ROLLOVER, DIRECTION, POSITION from bit 7 down (R47, R167). -/
def snapValue (s : State) : RegVal :=
  zext (s.speedLevel ++ BitVec.ofBool s.rollover ++ directionBit s.direction ++ s.position)

/-- PINS: LVL_R, LVL_L from bit 1 down (R48, R168). -/
def pinsValue (s : State) : RegVal := zext (BitVec.ofBool s.lvlR ++ BitVec.ofBool s.lvlL)

/-! ## Output lines and rates -/

/-- The LED bit of one position. -/
def ledBit (p : BitVec 4) : BitVec 16 := 1#16 <<< p.toNat

/-- Whether position p's line is driven high, which is lit (R30). -/
def lit (s : State) (p : BitVec 4) : Bool := s.led.getLsbD p.toNat

/-- The physical line of a position, `LED_TABLE(p)` (R31). -/
def lineOf (s : State) (p : BitVec 4) : Nat := s.params.ledTable.lines.get p.toFin

/-- Whether a physical line is driven high: it is the line of a lit position (R30). -/
def lineHigh (s : State) (line : Nat) : Bool :=
  (List.finRange 16).any fun p => lineOf s (BitVec.ofFin p) == line && lit s (BitVec.ofFin p)

/-- `RATE(l)`, advances per second: 2, 4, 8, 16; timing only, read by no rule (R6, R250). -/
def rate (l : BitVec 2) : Nat := 2 <<< l.toNat

end Sys2Proof.Machine
end

