-- ==== Sys2Proof/Machine/Flags.lean ====
section
/-! DEFINITION. Flag computations: the pending latches and their enables (R26, R100 to R103, R120), the
falling edge (R102), the natural tick (R101) and ROLLOVER (R24, R123, R156). -/

namespace Sys2Proof.Machine

/-- A pending latch after an occurrence of its source: set when the source is enabled; a set while it
holds 1 is absorbed (R26, R100 to R103). -/
def latch (pend enabled occurs : Bool) : Bool := pend || (enabled && occurs)

/-- A change of a sampled level from 1 to 0 (R102; the definition is the spec's own general knowledge,
log 17). -/
def fallingEdge (held new : Bool) : Bool := held && !new

/-- The request bit of a source: its flag and its enable (R120). -/
def request (s : State) : IrqVector → Bool
  | .ms => s.msPend && s.msEn
  | .tim => s.timPend && s.timIe
  | .btnl => s.btnlPend && s.btnlIe
  | .btnr => s.btnrPend && s.btnrIe

/-- Whether the timer's count has reached its reload value: the next pulse ticks (R101). -/
def atReload (s : State) : Bool := s.tcnt == s.treload

/-- Whether one ADVANCE wraps: LEFT from 15 or RIGHT from 0 (R123). -/
def wraps (d : Direction) (p : BitVec 4) : Bool :=
  match d with
  | .left => p == 15
  | .right => p == 0

/-- ROLLOVER after an ADVANCE: set on a wrap, never cleared (R123, R130). -/
def rolloverAfterAdvance (s : State) : Bool := s.rollover || wraps s.direction s.position

/-- ROLLOVER after a STATUS write: write-one-to-clear (R41, R156). -/
def rolloverAfterClear (s : State) (clear : Bool) : Bool := if clear then false else s.rollover

end Sys2Proof.Machine
end

