-- ==== Sys2Proof/Machine/Ops.lean ====
section
/-! DEFINITION. The shared operations: what an operation does around its own effect (when it is enabled,
what it consumes), taking a fault (R203), arbitration (R121), entering and leaving a handler (R207,
R208), ADVANCE (R123), and the choice of the next step (R131). -/

namespace Sys2Proof.Machine

abbrev Result := Host.Outcome State Fault Refusal

/-! ## Bookkeeping -/

/-- `IP <- IP + 1`: one operation word executed without fault (R32). -/
def consume (s : State) : State := { s with ip := s.ip + 1 }

/-- `HostReturn(a, v)`: append the pair to HLOG (R9, R33). -/
def hostReturn (a : HostAddr) (v : RegVal) (s : State) : State :=
  { s with hlog := s.hlog ++ [(a, v)] }

/-- `FAULT <- (code, word)`; no other field changes (R203). -/
def raiseFault (c : FaultCode) (w : Word) (s : State) : State := { s with fault := some ⟨c, w⟩ }

/-- The turn of a choice point is used up (log 2). -/
def popTurn (s : State) : State := { s with schedule := s.schedule.tail }

/-! ## Taking a fault -/

/-- Taking a fault is a next state with FAULT set; IP stays at the word (R203; log 4). -/
def takeFault (c : FaultCode) (w : Word) (s : State) : Result := .next (raiseFault c w s)

/-! ## Requests and arbitration -/

/-- The requesting source with the smallest vector number; none when REQ = 0 (R121). -/
def arbitrate (s : State) : Option IrqVector :=
  if request s .ms then some .ms
  else if request s .tim then some .tim
  else if request s .btnl then some .btnl
  else if request s .btnr then some .btnr
  else none

/-! ## When an operation is enabled -/

/-- No step of any agent is enabled once FAULT is set (R203). -/
def whenRunning (s : State) (k : Result) : Result :=
  match s.fault with
  | some r => .fault (.faulted r)
  | none => k

/-- A host word executes only when FAULT is none and REQ = 0 (R150). -/
def whenHostMayRun (s : State) (k : Result) : Result :=
  whenRunning s (if (arbitrate s).isSome then .fault .hostWordHeld else k)

/-- A service step is enabled when FAULT is none and the arbiter chooses its vector (R121, R122). -/
def whenSelected (v : IrqVector) (s : State) (k : Result) : Result :=
  whenRunning s (if arbitrate s = some v then k else .fault (.serviceNotSelected v))

/-! ## The shapes of operations -/

/-- An environment event without operand: accepted whenever FAULT is none (R105). -/
def eventStep (effect : State → State) (s : State) : Result :=
  whenRunning s (.next (consume (effect s)))

/-- A pin event with data byte `d`, whose word is `w` (R72, R102, R103). -/
def pinStep (w : Word) (d : Byte) (effect : State → State) (s : State) : Result :=
  whenRunning s
    (if pinDataOk d then .next (consume (effect s)) else takeFault .reservedField w s)

/-- A host read: append the register's value to HLOG; no block field changes (R151). -/
def readStep (r : HostReg) (v : RegVal) (s : State) : Result :=
  whenHostMayRun s (.next (consume (hostReturn r.addr v s)))

/-- A host write of `d` to `r`: the check of the unused bits, then the register's write rule (R152). -/
def writeStep (r : HostReg) (d : Byte) (effect : State → State) (s : State) : Result :=
  whenHostMayRun s
    (if writeDataOk r d then .next (consume (effect s))
     else takeFault .reservedField (writeWord r d) s)

/-- A service step. Entry saves nothing and changes no mode or mask, the handler runs to completion, and
its end goes back to arbitration with nothing to restore; IP and HLOG do not change (R122, R207,
R208). -/
def serviceStep (v : IrqVector) (handler : State → State) (s : State) : Result :=
  whenSelected v s (.next (handler s))

/-! ## The scheduler step -/

/-- POSITION after one step in a direction (R123). -/
def nextPosition (d : Direction) (p : BitVec 4) : BitVec 4 :=
  match d with
  | .left => if p = 15 then 0 else p + 1
  | .right => if p = 0 then 15 else p - 1

/-- ADVANCE(): acknowledge the tick, then move one step in the current direction (R123). -/
def advance (s : State) : State :=
  { s with
    timPend := false
    position := nextPosition s.direction s.position
    rollover := rolloverAfterAdvance s }

/-- A button handler's request for a direction: nothing when it already holds, otherwise the new
direction and a forced tick with it (R126, R127). -/
def turnTo (d : Direction) (s : State) : State :=
  if s.direction = d then s else advance { s with direction := d }

/-! ## The choice of the next step -/

/-- The next word of the trace, at index IP (R70). -/
def fetch (s : State) : Option Word := s.trace[s.ip]?

/-- What is enabled and has its turn. -/
inductive Action where
  | service (v : IrqVector)
  | word (w : Word)
  | idle
  deriving DecidableEq, Repr

/-- A point where a service step and an operation word are both enabled: a request is pending and the
next word is not a host word (R105, R122, R150). -/
def choicePoint (s : State) : Bool :=
  (arbitrate s).isSome && match fetch s with
    | some w => !isHostWord w
    | none => false

/-- The next step of the interleaving (R131): a held host word waits for every service step; at a choice
point the schedule decides, and a service step is taken when it names no turn (R133; log 2). -/
def nextAction (s : State) : Action :=
  match arbitrate s, fetch s with
  | none, none => .idle
  | none, some w => .word w
  | some v, none => .service v
  | some v, some w =>
    if isHostWord w then .service v
    else match s.schedule with
      | .word :: _ => .word w
      | _ => .service v

/-- The state the chosen step starts from: at a choice point its turn is used up. -/
def takeTurn (s : State) : State := if choicePoint s then popTurn s else s

/-! ## Placing the next operation -/

/-- Put a word where the next one is fetched; the rest of the trace stays. -/
def placeWord (w : Word) (s : State) : State :=
  { s with
    trace := s.trace.take s.ip ++ List.replicate (s.ip - s.trace.length) 0 ++
      w :: s.trace.drop (s.ip + 1) }

/-- Make the coming choice point, if there is one, go to `t`. -/
def giveTurn (t : Turn) (s : State) : State :=
  if choicePoint s then { s with schedule := t :: s.schedule } else s

/-- Drop every pending request, so that a host word is not held; a latched flag whose enable is 0 stays. -/
def dropRequests (s : State) : State :=
  { s with
    msPend := s.msPend && !s.msEn
    timPend := s.timPend && !s.timIe
    btnlPend := s.btnlPend && !s.btnlIe
    btnrPend := s.btnrPend && !s.btnrIe }

/-- Raise the request of one source and no other. -/
def requestOnly (v : IrqVector) (s : State) : State :=
  match v with
  | .ms => { dropRequests s with msPend := true, msEn := true }
  | .tim => { dropRequests s with timPend := true, timIe := true }
  | .btnl => { dropRequests s with btnlPend := true, btnlIe := true }
  | .btnr => { dropRequests s with btnrPend := true, btnrIe := true }

/-- Raise the request of a vector unless the arbiter chooses it already. -/
def selectVector (v : IrqVector) (s : State) : State :=
  if arbitrate s = some v then s else requestOnly v s

/-- The vector of a 2-bit number (R204). -/
def vectorOf (v : BitVec 2) : IrqVector :=
  if v = 0 then .ms else if v = 1 then .tim else if v = 2 then .btnl else .btnr

/-- The state in which the next step runs the operation word `w`. -/
def withWord (w : Word) (s : State) : State :=
  let t := placeWord w { s with fault := none }
  if isHostWord w then (if (arbitrate t).isSome then dropRequests t else t) else giveTurn .word t

/-- The state in which the next step is the service step of `v`. -/
def withVector (v : IrqVector) (s : State) : State :=
  giveTurn .service (selectVector v { s with fault := none })

end Sys2Proof.Machine
end

