-- ==== Sys2Proof/Machine/Events.lean ====
section
/-! DEFINITION. The environment events: MSTICK, TCLK, PINL, PINR, RESET (R100 to R104). -/

namespace Sys2Proof.Machine

/-- A millisecond tick latches MS_PEND when enabled (R100). -/
def msTick (s : State) : State := { s with msPend := latch s.msPend s.msEn true }

/-- MSTICK (R100). -/
def execMstick (s : State) : Result := eventStep msTick s

/-- One timer pulse: while TIM_CEN is set the count goes to the reload value and then back to 0 with a
natural tick, which latches TIM_PEND when TIM_IE is set (R101). -/
def timerPulse (s : State) : State :=
  if s.timCen then
    if atReload s then { s with tcnt := 0, timPend := latch s.timPend s.timIe true }
    else { s with tcnt := s.tcnt + 1 }
  else s

/-- TCLK (R101). -/
def execTclk (s : State) : Result := eventStep timerPulse s

/-- A new level of the left button: a falling edge latches BTNL_PEND when enabled, and LVL_L follows the
pin (R102). -/
def sampleLeft (level : Bool) (s : State) : State :=
  { s with btnlPend := latch s.btnlPend s.btnlIe (fallingEdge s.lvlL level), lvlL := level }

/-- PINL (R102). -/
def execPinl (d : Byte) (s : State) : Result :=
  pinStep (pinWord 0x3 d) d (sampleLeft (levelOperand d)) s

/-- A new level of the right button (R103). -/
def sampleRight (level : Bool) (s : State) : State :=
  { s with btnrPend := latch s.btnrPend s.btnrIe (fallingEdge s.lvlR level), lvlR := level }

/-- PINR (R103). -/
def execPinr (d : Byte) (s : State) : Result :=
  pinStep (pinWord 0x4 d) d (sampleRight (levelOperand d)) s

/-- Every field of R37 other than IP, HLOG and FAULT to its reset value (R104). The model's own fields
stay: the trace goes on after a RESET word. -/
def resetFields (s : State) : State :=
  { s with
    position := 0
    direction := .left
    speedLevel := 0
    rollover := false
    mscnt := 0
    msPend := false
    timPend := false
    btnlPend := false
    btnrPend := false
    msEn := false
    timIe := false
    timCen := false
    btnlIe := false
    btnrIe := false
    tcnt := 0
    treload := s.reload 0
    lvlL := true
    lvlR := true
    led := 0x0000 }

/-- RESET (R104). -/
def execReset (s : State) : Result := eventStep resetFields s

end Sys2Proof.Machine
end

