-- ==== Sys2Proof/Machine/HostReads.lean ====
section
/-! DEFINITION. The host reads (R151, R153 to R168). -/

namespace Sys2Proof.Machine

/-- RD POS (R153). -/
def execRdPos (s : State) : Result := readStep .pos (posValue s) s

/-- RD DIR (R154). -/
def execRdDir (s : State) : Result := readStep .dir (dirValue s) s

/-- RD STATUS (R155). -/
def execRdStatus (s : State) : Result := readStep .status (statusValue s) s

/-- RD SPEED (R157). -/
def execRdSpeed (s : State) : Result := readStep .speed (speedValue s) s

/-- RD CTRL (R159). -/
def execRdCtrl (s : State) : Result := readStep .ctrl (ctrlValue s) s

/-- RD MSCNT (R161). -/
def execRdMscnt (s : State) : Result := readStep .mscnt (mscntValue s) s

/-- RD TCNT (R162). -/
def execRdTcnt (s : State) : Result := readStep .tcnt (tcntValue s) s

/-- RD TRELOAD (R163). -/
def execRdTreload (s : State) : Result := readStep .treload (treloadValue s) s

/-- RD LED (R164). -/
def execRdLed (s : State) : Result := readStep .led (ledValue s) s

/-- RD SNAP (R167). -/
def execRdSnap (s : State) : Result := readStep .snap (snapValue s) s

/-- RD PINS (R168). -/
def execRdPins (s : State) : Result := readStep .pins (pinsValue s) s

end Sys2Proof.Machine
end

