-- ==== Sys2Proof/Machine/HostWrites.lean ====
section
/-! DEFINITION. The host writes (R152, R156, R158, R160, R165, R166). -/

namespace Sys2Proof.Machine

/-- Clear ROLLOVER when the mask is 1; the pending flags are not writable (R156). -/
def clearRollover (clear : Bool) (s : State) : State :=
  { s with rollover := rolloverAfterClear s clear }

/-- WR STATUS (R156). -/
def execWrStatus (d : Byte) (s : State) : Result :=
  writeStep .status d (clearRollover (clearOperand d)) s

/-- Speed reprogramming: the level, its reload value, and the count from 0 (R158). -/
def setSpeed (l : BitVec 2) (s : State) : State :=
  { s with speedLevel := l, treload := s.reload l, tcnt := 0 }

/-- WR SPEED (R158). -/
def execWrSpeed (d : Byte) (s : State) : Result :=
  writeStep .speed d (setSpeed (speedOperand d)) s

/-- The five enables from D[4:0]; no pending flag changes (R160). -/
def setEnables (d : Byte) (s : State) : State :=
  { s with
    msEn := d.getLsbD 0
    timIe := d.getLsbD 1
    timCen := d.getLsbD 2
    btnlIe := d.getLsbD 3
    btnrIe := d.getLsbD 4 }

/-- WR CTRL (R160). -/
def execWrCtrl (d : Byte) (s : State) : Result := writeStep .ctrl d (setEnables d) s

/-- `LED[p] <- 1` (R165). -/
def setLed (p : BitVec 4) (s : State) : State := { s with led := s.led ||| ledBit p }

/-- WR LEDSET (R165). -/
def execWrLedset (d : Byte) (s : State) : Result :=
  writeStep .ledset d (setLed (positionOperand d)) s

/-- `LED[p] <- 0` (R166). -/
def clearLed (p : BitVec 4) (s : State) : State := { s with led := s.led &&& ~~~ledBit p }

/-- WR LEDCLR (R166). -/
def execWrLedclr (d : Byte) (s : State) : Result :=
  writeStep .ledclr d (clearLed (positionOperand d)) s

end Sys2Proof.Machine
end

