-- ==== Sys2Proof/Machine/Service.lean ====
section
/-! DEFINITION. The four interrupt handlers (R124 to R127). -/

namespace Sys2Proof.Machine

/-- The millisecond clock handler: acknowledge, count with a wrap at 2^32 (R124). -/
def msHandler (s : State) : State := { s with msPend := false, mscnt := s.mscnt + 1 }

/-- SVC_MS (R124). -/
def execSvcMs (s : State) : Result := serviceStep .ms msHandler s

/-- SVC_TIM: one ADVANCE, which clears TIM_PEND first (R125). -/
def execSvcTim (s : State) : Result := serviceStep .tim advance s

/-- The "rotate left" handler: acknowledge the edge, then LEFT with a forced tick (R126). -/
def btnlHandler (s : State) : State := turnTo .left { s with btnlPend := false }

/-- SVC_BTNL (R126). -/
def execSvcBtnl (s : State) : Result := serviceStep .btnl btnlHandler s

/-- The "rotate right" handler (R127). -/
def btnrHandler (s : State) : State := turnTo .right { s with btnrPend := false }

/-- SVC_BTNR (R127). -/
def execSvcBtnr (s : State) : Result := serviceStep .btnr btnrHandler s

end Sys2Proof.Machine
end

