-- ==== Sys2Proof/Machine/Dispatch.lean ====
section
/-! DEFINITION. One arm per operation, each one call of its meaning. -/

namespace Sys2Proof.Machine

def exec (i : Instr) (s : State) : Host.Outcome State Fault Refusal :=
  match i with
  -- environment events
  | .mstick => Sys2Proof.Machine.execMstick s
  | .tclk => Sys2Proof.Machine.execTclk s
  | .pinl d => Sys2Proof.Machine.execPinl d s
  | .pinr d => Sys2Proof.Machine.execPinr d s
  -- host reads
  | .rdPos => Sys2Proof.Machine.execRdPos s
  | .rdDir => Sys2Proof.Machine.execRdDir s
  | .rdStatus => Sys2Proof.Machine.execRdStatus s
  | .rdSpeed => Sys2Proof.Machine.execRdSpeed s
  | .rdCtrl => Sys2Proof.Machine.execRdCtrl s
  | .rdMscnt => Sys2Proof.Machine.execRdMscnt s
  | .rdTcnt => Sys2Proof.Machine.execRdTcnt s
  | .rdTreload => Sys2Proof.Machine.execRdTreload s
  | .rdLed => Sys2Proof.Machine.execRdLed s
  | .rdSnap => Sys2Proof.Machine.execRdSnap s
  | .rdPins => Sys2Proof.Machine.execRdPins s
  -- host writes
  | .wrStatus d => Sys2Proof.Machine.execWrStatus d s
  | .wrSpeed d => Sys2Proof.Machine.execWrSpeed d s
  | .wrCtrl d => Sys2Proof.Machine.execWrCtrl d s
  | .wrLedset d => Sys2Proof.Machine.execWrLedset d s
  | .wrLedclr d => Sys2Proof.Machine.execWrLedclr d s
  -- reset
  | .reset => Sys2Proof.Machine.execReset s
  -- service steps
  | .svcMs => Sys2Proof.Machine.execSvcMs s
  | .svcTim => Sys2Proof.Machine.execSvcTim s
  | .svcBtnl => Sys2Proof.Machine.execSvcBtnl s
  | .svcBtnr => Sys2Proof.Machine.execSvcBtnr s

end Sys2Proof.Machine
end

