-- ==== Sys2Proof/Machine/Step.lean ====
section
/-! DEFINITION. One step of the machine: one transition of the interleaving of R131. -/

namespace Sys2Proof.Machine

/-- One transition. Once FAULT is set nothing is enabled (R203). Otherwise the service step or the word
whose turn it is runs (R122, R131, R150); a word that does not decode is taken as its fault (R77, R203);
with neither a word nor a request no step is enabled (R132). -/
def step (s : State) : Host.Outcome State Fault Refusal :=
  match s.fault with
  | some r => .fault (.faulted r)
  | none =>
    match nextAction s with
    | .idle => .fault .runEnded
    | .service v => exec (serviceInstr v) (takeTurn s)
    | .word w =>
      match decodeWord w with
      | .instr i => exec i (takeTurn s)
      | .reject c => takeFault c w (takeTurn s)

/-- The state in which the next step runs the operation whose bits are `w` (log 10): a row of at most 8
bits is a vector number, whose request is raised; a longer one is an operation word, placed at IP. -/
def State.withFetchWord (s : State) (nbits w : Nat) : State :=
  if nbits ≤ 8 then withVector (vectorOf (BitVec.ofNat 2 w)) s else withWord (BitVec.ofNat 16 w) s

end Sys2Proof.Machine
end

