-- ==== Sys2Proof/Machine/Assembler.lean ====
section
/-! DEFINITION. The assembly syntax (R79) and the pseudo-operations (R80). What R79 does not fix of the
text is log 12. -/

namespace Sys2Proof.Machine

/-! ## Operations -/

/-- `<reg>`: a register name or a number 0..15 (R79). -/
inductive RegRef where
  | name (r : HostReg)
  | number (n : Nat)
  deriving DecidableEq, Repr

/-- One line of R79's syntax. -/
inductive AsmOp where
  | mstick
  | tclk
  | pinl (level : Nat)
  | pinr (level : Nat)
  | rd (r : RegRef)
  | wr (r : RegRef) (imm : Nat)
  | reset
  deriving DecidableEq, Repr

/-- The address a register operand names. -/
def RegRef.addr : RegRef → Option HostAddr
  | .name r => some r.addr
  | .number n => if n < 16 then some (BitVec.ofNat 4 n) else none

/-- A word the assembler may give: one that does not fault (R79). -/
def legalWord (w : Word) : Option Word :=
  match decodeWord w with
  | .instr _ => some w
  | .reject _ => none

/-- The word of a line; none where an operand is out of its range or the word would fault by R77. -/
def assembleOp : AsmOp → Option Word
  | .mstick => legalWord 0x1000
  | .tclk => legalWord 0x2000
  | .pinl n => if n < 2 then legalWord (0x3000#16 ||| BitVec.ofNat 16 n) else none
  | .pinr n => if n < 2 then legalWord (0x4000#16 ||| BitVec.ofNat 16 n) else none
  | .rd r => r.addr.bind fun a => legalWord (0x5000#16 ||| a.setWidth 16 <<< 8)
  | .wr r n =>
    if n < 256 then r.addr.bind fun a => legalWord (0x6000#16 ||| a.setWidth 16 <<< 8 ||| BitVec.ofNat 16 n)
    else none
  | .reset => legalWord 0x7000

/-- The pseudo-operations (R80). -/
inductive Pseudo where
  | pressl
  | releasel
  | clickl
  | pressr
  | releaser
  | clickr
  | ticks (n : Nat)
  | msticks (n : Nat)
  | ackroll
  | ledon (p : Nat)
  | ledoff (p : Nat)
  | setspeed (l : Nat)
  deriving DecidableEq, Repr

/-- The expansions of R80. -/
def expand : Pseudo → List AsmOp
  | .pressl => [.pinl 0]
  | .releasel => [.pinl 1]
  | .clickl => [.pinl 0, .pinl 1]
  | .pressr => [.pinr 0]
  | .releaser => [.pinr 1]
  | .clickr => [.pinr 0, .pinr 1]
  | .ticks n => List.replicate n .tclk
  | .msticks n => List.replicate n .mstick
  | .ackroll => [.wr (.name .status) 0x01]
  | .ledon p => [.wr (.name .ledset) p]
  | .ledoff p => [.wr (.name .ledclr) p]
  | .setspeed l => [.wr (.name .speed) l]

/-- The words of several operations; none where one is refused. -/
def assembleOps : List AsmOp → Option (List Word)
  | [] => some []
  | o :: os => (assembleOp o).bind fun w => (assembleOps os).map (w :: ·)

/-! ## Text -/

def digitValue (c : Char) : Option Nat :=
  if '0' ≤ c ∧ c ≤ '9' then some (c.toNat - '0'.toNat)
  else if 'a' ≤ c ∧ c ≤ 'f' then some (c.toNat - 'a'.toNat + 10)
  else if 'A' ≤ c ∧ c ≤ 'F' then some (c.toNat - 'A'.toNat + 10)
  else none

/-- The value of digits of a base, most significant first, after the digits read so far. -/
def digitsFrom (base : Nat) : Nat → List Char → Option Nat
  | acc, [] => some acc
  | acc, c :: cs =>
    match digitValue c with
    | some v => if v < base then digitsFrom base (acc * base + v) cs else none
    | none => none

/-- A number of at least one digit. -/
def digits (base : Nat) : List Char → Option Nat
  | [] => none
  | cs => digitsFrom base 0 cs

/-- A number written decimal or with 0x or 0b before it (R79). -/
def parseNumber : List Char → Option Nat
  | '0' :: 'x' :: cs => digits 16 cs
  | '0' :: 'b' :: cs => digits 2 cs
  | cs => digits 10 cs

/-- A register's name (R38). -/
def regName : HostReg → List Char
  | .pos => ['P', 'O', 'S']
  | .dir => ['D', 'I', 'R']
  | .status => ['S', 'T', 'A', 'T', 'U', 'S']
  | .speed => ['S', 'P', 'E', 'E', 'D']
  | .ctrl => ['C', 'T', 'R', 'L']
  | .mscnt => ['M', 'S', 'C', 'N', 'T']
  | .tcnt => ['T', 'C', 'N', 'T']
  | .treload => ['T', 'R', 'E', 'L', 'O', 'A', 'D']
  | .led => ['L', 'E', 'D']
  | .ledset => ['L', 'E', 'D', 'S', 'E', 'T']
  | .ledclr => ['L', 'E', 'D', 'C', 'L', 'R']
  | .snap => ['S', 'N', 'A', 'P']
  | .pins => ['P', 'I', 'N', 'S']

def parseReg (t : List Char) : Option RegRef :=
  match HostReg.all.find? (fun r => regName r == t) with
  | some r => some (.name r)
  | none => (parseNumber t).map .number

/-- Add a finished token, kept reversed while it was read. -/
def flushToken (cur : List Char) (rest : List (List Char)) : List (List Char) :=
  match cur with
  | [] => rest
  | _ => cur.reverse :: rest

/-- Tokens of a line: blanks part them, a comma is one of its own, `;` starts a comment (R79). -/
def tokensFrom : List Char → List Char → List (List Char)
  | cur, [] => flushToken cur []
  | cur, c :: cs =>
    if c = ';' then flushToken cur []
    else if c = ' ' ∨ c = '\t' then flushToken cur (tokensFrom [] cs)
    else if c = ',' then flushToken cur ([','] :: tokensFrom [] cs)
    else tokensFrom (c :: cur) cs

def tokens (line : List Char) : List (List Char) := tokensFrom [] line

/-- A line with no operand (R79, R80). -/
def parseNullary (t : List Char) : Option (List AsmOp) :=
  if t = ['M', 'S', 'T', 'I', 'C', 'K'] then some [.mstick]
  else if t = ['T', 'C', 'L', 'K'] then some [.tclk]
  else if t = ['R', 'E', 'S', 'E', 'T'] then some [.reset]
  else if t = ['P', 'R', 'E', 'S', 'S', 'L'] then some (expand .pressl)
  else if t = ['R', 'E', 'L', 'E', 'A', 'S', 'E', 'L'] then some (expand .releasel)
  else if t = ['C', 'L', 'I', 'C', 'K', 'L'] then some (expand .clickl)
  else if t = ['P', 'R', 'E', 'S', 'S', 'R'] then some (expand .pressr)
  else if t = ['R', 'E', 'L', 'E', 'A', 'S', 'E', 'R'] then some (expand .releaser)
  else if t = ['C', 'L', 'I', 'C', 'K', 'R'] then some (expand .clickr)
  else if t = ['A', 'C', 'K', 'R', 'O', 'L', 'L'] then some (expand .ackroll)
  else none

/-- A line with one number as its operand (R79, R80). -/
def parseUnary (t : List Char) (n : Nat) : Option (List AsmOp) :=
  if t = ['P', 'I', 'N', 'L'] then some [.pinl n]
  else if t = ['P', 'I', 'N', 'R'] then some [.pinr n]
  else if t = ['T', 'I', 'C', 'K', 'S'] then some (expand (.ticks n))
  else if t = ['M', 'S', 'T', 'I', 'C', 'K', 'S'] then some (expand (.msticks n))
  else if t = ['L', 'E', 'D', 'O', 'N'] then some (expand (.ledon n))
  else if t = ['L', 'E', 'D', 'O', 'F', 'F'] then some (expand (.ledoff n))
  else if t = ['S', 'E', 'T', 'S', 'P', 'E', 'E', 'D'] then some (expand (.setspeed n))
  else none

/-- The operations of a line's tokens; a blank or comment line has none. -/
def parseTokens : List (List Char) → Option (List AsmOp)
  | [] => some []
  | [t] => parseNullary t
  | [t, a] =>
    if t = ['R', 'D'] then (parseReg a).map fun r => [.rd r]
    else (parseNumber a).bind (parseUnary t)
  | [t, a, c, b] =>
    if t = ['W', 'R'] ∧ c = [','] then
      (parseReg a).bind fun r => (parseNumber b).map fun n => [.wr r n]
    else none
  | _ => none

/-- The words of one line; none where the line is refused. -/
def assembleLine (line : List Char) : Option (List Word) :=
  (parseTokens (tokens line)).bind assembleOps

/-- The outcome of assembling: the words, or the number of the first refused line, counted from 1 (R79:
"must refuse a line whose word would fault by rule R77, naming the line"). -/
inductive Assembled where
  | words (ws : List Word)
  | refused (line : Nat)
  deriving DecidableEq, Repr

def assembleFrom : Nat → List (List Char) → Assembled
  | _, [] => .words []
  | n, l :: ls =>
    match assembleLine l with
    | none => .refused n
    | some ws =>
      match assembleFrom (n + 1) ls with
      | .words rest => .words (ws ++ rest)
      | .refused k => .refused k

def assemble (lines : List (List Char)) : Assembled := assembleFrom 1 lines

end Sys2Proof.Machine
end

