-- ==== Sys2Proof/Machine/HostProcedures.lean ====
section
/-! DEFINITION. The host procedures the spec states as contracts of the main loop: startup (R231), display
(R170), rollover (R171), one iteration (R172). The block does not depend on them. Each is run here with no
step of another agent between its words (log 15). -/

namespace Sys2Proof.Machine

/-- Run operations one after another, stopping at the first that answers no next state. -/
def execAll : List Instr → State → Result
  | [], s => .next s
  | i :: is, s =>
    match exec i s with
    | .next t => execAll is t
    | .fault r => .fault r
    | .refused r => .refused r

/-! ## The fields of a snapshot (R47) -/

def snapPosition (v : RegVal) : BitVec 4 := v.extractLsb' 0 4

def snapDirection (v : RegVal) : Direction := if v.getLsbD 4 then .right else .left

def snapRollover (v : RegVal) : Bool := v.getLsbD 5

def snapSpeed (v : RegVal) : BitVec 2 := v.extractLsb' 6 2

/-! ## The procedures -/

/-- The position lit before this one along the direction of travel (R170). -/
def prevPosition (p : BitVec 4) : Direction → BitVec 4
  | .left => p + 15
  | .right => p + 1

/-- The display's two writes: the current line on first, then the previous one off (R170). -/
def displayWrites (v : RegVal) : List Instr :=
  [.wrLedset ((snapPosition v).setWidth 8),
   .wrLedclr ((prevPosition (snapPosition v) (snapDirection v)).setWidth 8)]

/-- The reaction to a rollover: the next level, then the clear, last (R171, R247). -/
def rolloverWrites (v : RegVal) : List Instr :=
  if snapRollover v then [.wrSpeed ((snapSpeed v + 1).setWidth 8), .wrStatus 0x01] else []

/-- The value of the last host read. -/
def lastRead (s : State) : RegVal :=
  match s.hlog.getLast? with
  | some (_, v) => v
  | none => 0

/-- RD SNAP, then the writes the host derives from the value read. -/
def afterSnapshot (react : RegVal → List Instr) (s : State) : Result :=
  match exec .rdSnap s with
  | .next t => execAll (react (lastRead t)) t
  | .fault r => .fault r
  | .refused r => .refused r

/-- One run of the display procedure (R170). -/
def displayRun (s : State) : Result := afterSnapshot displayWrites s

/-- One run of the rollover procedure (R171). R171 lets the host see ROLLOVER by RD SNAP or RD STATUS; this
one reads SNAP, the STATUS form being left out. DESIGN CHOICE (log 19). -/
def rolloverRun (s : State) : Result := afterSnapshot rolloverWrites s

/-- One main-loop iteration: both procedures on one snapshot (R172). -/
def iterationRun (s : State) : Result :=
  afterSnapshot (fun v => displayWrites v ++ rolloverWrites v) s

/-- The startup sequence, steps 2 to 5 (R231). -/
def startupSequence : List Instr :=
  [.wrCtrl 0x18, .wrCtrl 0x19, .wrSpeed 0x00, .wrCtrl 0x1B, .wrCtrl 0x1F]

end Sys2Proof.Machine
end

