-- ==== Sys2Proof/Safety.lean ====
section
/-! DEFINITION. The terms claims are stated in: final and faulted states (R132, R203), the invariants of
R36, the step relation of R131, and the premises some claims take. -/

namespace Sys2Proof.Safety

open Sys2Proof.Machine

/-- A faulted state (R203). -/
def Faulted (s : State) : Prop := s.fault.isSome = true

/-- The reset table of R37 (decision D11 of the spec). -/
structure ResetTable (s : State) : Prop where
  position : s.position.toNat = 0
  direction : s.direction = .left
  speedLevel : s.speedLevel.toNat = 0
  rollover : s.rollover = false
  mscnt : s.mscnt.toNat = 0
  pending : s.msPend = false ∧ s.timPend = false ∧ s.btnlPend = false ∧ s.btnrPend = false
  enables : s.msEn = false ∧ s.timIe = false ∧ s.timCen = false ∧ s.btnlIe = false ∧ s.btnrIe = false
  tcnt : s.tcnt.toNat = 0
  treload : s.treload = s.reload 0
  levels : s.lvlL = true ∧ s.lvlR = true
  led : s.led.toNat = 0

/-- A final state: every word consumed, no request, FAULT none (R132). -/
structure Final (s : State) : Prop where
  consumed : s.ip = s.trace.length
  noRequest : arbitrate s = none
  noFault : s.fault = none

/-- The invariants of R36 (c) and (d), and two of the model's bookkeeping: IP stays within the trace
(R32, R132) and FAULT holds what the word at IP decodes to (R203). R36 (a) and (b) hold by the widths of
the fields. -/
structure Inv (s : State) : Prop where
  reloadOfLevel : s.treload = s.reload s.speedLevel
  countInRange : s.tcnt.toNat ≤ s.treload.toNat
  ipInTrace : s.ip ≤ s.trace.length
  faultAtIp : ∀ r, s.fault = some r → fetch s = some r.word ∧ decodeWord r.word = .reject r.code

/-- The transitions of R131, which name no schedule: a service step of the arbiter's vector, or the word
at IP, a host word only when REQ = 0 (R150) and any other word at any time (R105). A word that does not
decode is taken as its fault (R203); WHEN it may be, `badWord`'s `notHeld`, is the model's reading of a
point the spec is silent on (log 7). -/
inductive Transition : State → State → Prop where
  | service {s t : State} {v : IrqVector} (running : s.fault = none) (chosen : arbitrate s = some v)
      (done : exec (serviceInstr v) s = .next t) : Transition s t
  | word {s t : State} {w : Word} {i : Instr} (running : s.fault = none) (fetched : fetch s = some w)
      (notHeld : isHostWord w = true → arbitrate s = none) (decodes : decodeWord w = .instr i)
      (done : exec i s = .next t) : Transition s t
  | badWord {s : State} {w : Word} {c : FaultCode} (running : s.fault = none)
      (fetched : fetch s = some w) (notHeld : isHostWord w = true → arbitrate s = none)
      (rejects : decodeWord w = .reject c) : Transition s (raiseFault c w s)

/-- A change made to the next state, where there is one. -/
def mapNext (f : State → State) : Result → Result
  | .next t => .next (f t)
  | .fault r => .fault r
  | .refused r => .refused r

/-- How many pending flags are latched. -/
def pendingCount (s : State) : Nat :=
  s.msPend.toNat + s.timPend.toNat + s.btnlPend.toNat + s.btnrPend.toNat

/-- The service steps and the operation words of the environment and the host. -/
def isService : Instr → Bool
  | .svcMs | .svcTim | .svcBtnl | .svcBtnr => true
  | .mstick | .tclk | .pinl _ | .pinr _ | .rdPos | .rdDir | .rdStatus | .rdSpeed | .rdCtrl | .rdMscnt
  | .rdTcnt | .rdTreload | .rdLed | .rdSnap | .rdPins | .wrStatus _ | .wrSpeed _ | .wrCtrl _
  | .wrLedset _ | .wrLedclr _ | .reset => false

/-- The host reads (R151). -/
def isRead : Instr → Bool
  | .rdPos | .rdDir | .rdStatus | .rdSpeed | .rdCtrl | .rdMscnt | .rdTcnt | .rdTreload | .rdLed
  | .rdSnap | .rdPins => true
  | .mstick | .tclk | .pinl _ | .pinr _ | .wrStatus _ | .wrSpeed _ | .wrCtrl _ | .wrLedset _
  | .wrLedclr _ | .reset | .svcMs | .svcTim | .svcBtnl | .svcBtnr => false

/-- The host writes (R152). -/
def isWrite : Instr → Bool
  | .wrStatus _ | .wrSpeed _ | .wrCtrl _ | .wrLedset _ | .wrLedclr _ => true
  | .mstick | .tclk | .pinl _ | .pinr _ | .rdPos | .rdDir | .rdStatus | .rdSpeed | .rdCtrl | .rdMscnt
  | .rdTcnt | .rdTreload | .rdLed | .rdSnap | .rdPins | .reset | .svcMs | .svcTim | .svcBtnl
  | .svcBtnr => false

/-- A host word is free to run: FAULT none and REQ = 0 (R150). -/
structure HostMayRun (s : State) : Prop where
  noFault : s.fault = none
  noRequest : arbitrate s = none

/-- Different positions have different lines: `LED_TABLE` gives 16 distinct identifiers (R6). -/
def LedTableDistinct (s : State) : Prop := ∀ p q : BitVec 4, lineOf s p = lineOf s q → p = q

/-- The platform's duty: (RELOAD(l) + 1) / F_TCLK = 1 / RATE(l) (R250). Timing only. -/
def PlatformDuty (s : State) : Prop :=
  ∀ l : BitVec 2, ((s.reload l).toNat + 1) * rate l = s.params.fTclk

/-- How many of the next `n` timer pulses tick: those that find TCNT at TRELOAD while TIM_CEN is set
(R101). -/
def ticksIn : Nat → State → Nat
  | 0, _ => 0
  | n + 1, s => (s.timCen && atReload s).toNat + ticksIn n (timerPulse s)

/-- Exactly one position's line is driven high. -/
def OnlyLit (s : State) (p : BitVec 4) : Prop := ∀ q : BitVec 4, lit s q = true ↔ q = p

end Sys2Proof.Safety
end

