-- ==== Sys2Proof/Certificates/Slice0/Obligations.lean ====
section
/-! DEFINITION. The statements about the model, for the provers. Each docstring names the rule it
formalises, or says that it is the model's choice and names the log entry. -/

open Sys2Proof Sys2Proof.Machine Sys2Proof.Safety

/-! ## Reset -/

/-- R37, R104 (values: decision D11 of the spec): the reset table holds of the initial state and of the
state a RESET word, 0x7000, leaves, which keeps HLOG and, but for its own word, IP; in a faulted state
RESET does not run. The model's own three fields stay. -/
def Obligations.ResetTableAtStartAndAfterReset : Prop :=
  (ResetTable State.reset ∧ State.reset.ip = 0 ∧ State.reset.hlog = [] ∧ State.reset.fault = none) ∧
  decodeWord 0x7000 = .instr .reset ∧
  (∀ s : State, s.fault = none → ∃ t : State, exec .reset s = .next t ∧ ResetTable t ∧
    t.ip = s.ip + 1 ∧ t.hlog = s.hlog ∧ t.fault = none ∧ arbitrate t = none ∧
    t.trace = s.trace ∧ t.schedule = s.schedule ∧ t.params = s.params) ∧
  (∀ (s : State) (r : FaultRecord), s.fault = some r → exec .reset s = .fault (.faulted r))

/-! ## Environment events -/

/-- R100: MSTICK, 0x1000, latches MS_PEND when MS_EN is set and changes nothing else but IP. -/
def Obligations.MstickLatchesWhenEnabled : Prop :=
  decodeWord 0x1000 = .instr .mstick ∧
  ∀ s : State, s.fault = none →
    exec .mstick s = .next { s with
      msPend := if s.msEn = true then true else s.msPend
      ip := s.ip + 1 }

/-- R101: TCLK, 0x2000, does nothing with TIM_CEN clear, ticks at TRELOAD, and counts by one otherwise; nothing
else changes but IP. -/
def Obligations.TclkCountsAndTicks : Prop :=
  decodeWord 0x2000 = .instr .tclk ∧
  ∀ s : State, s.fault = none →
    (s.timCen = false → exec .tclk s = .next { s with ip := s.ip + 1 }) ∧
    (s.timCen = true → s.tcnt.toNat = s.treload.toNat →
      exec .tclk s = .next { s with
        tcnt := 0
        timPend := if s.timIe = true then true else s.timPend
        ip := s.ip + 1 }) ∧
    (s.timCen = true → s.tcnt.toNat ≠ s.treload.toNat →
      exec .tclk s = .next { s with
        tcnt := BitVec.ofNat 32 ((s.tcnt.toNat + 1) % 2 ^ 32)
        ip := s.ip + 1 })

/-- R101's corner case "The tick period is TRELOAD + 1 pulses": from TCNT = 0 the first TRELOAD pulses
only count, and the next one brings TCNT back to 0 and latches a tick when TIM_IE is set. -/
def Obligations.TickPeriodIsReloadPlusOnePulses : Prop :=
  ∀ s : State, s.fault = none → s.timCen = true → s.tcnt.toNat = 0 →
    (∀ k : Nat, k ≤ s.treload.toNat →
      execAll (List.replicate k .tclk) s =
        .next { s with tcnt := BitVec.ofNat 32 k, ip := s.ip + k }) ∧
    execAll (List.replicate (s.treload.toNat + 1) .tclk) s =
      .next { s with
        timPend := if s.timIe = true then true else s.timPend
        ip := s.ip + (s.treload.toNat + 1) }

/-- The spec's R250 (timing, derived there from decision D14): where the platform keeps its duty
(RELOAD(l) + 1) / F_TCLK = 1 / RATE(l), a second of timer pulses from TCNT = 0 ticks RATE(SPEED_LEVEL)
times. -/
def Obligations.OneSecondOfPulsesTicksAtTheRate : Prop :=
  ∀ s : State, PlatformDuty s → s.treload = s.reload s.speedLevel → s.timCen = true →
    s.tcnt.toNat = 0 → ticksIn s.params.fTclk s = rate s.speedLevel

/-- R102 (its definition of a falling edge is the spec's general knowledge G1, log 17): PINL latches
BTNL_PEND on an enabled change from 1 to 0 and LVL_L follows the pin; a nonzero D[7:1] takes the fault
RESERVED_FIELD. Nothing else changes but IP. -/
def Obligations.PinlLatchesOnFallingEdge : Prop :=
  ∀ (s : State) (d : Byte), s.fault = none →
    (d.toNat < 2 → decodeWord (BitVec.ofNat 16 (0x3000 + d.toNat)) = .instr (.pinl d)) ∧
    (d.toNat < 2 → exec (.pinl d) s = .next { s with
      btnlPend := if s.lvlL = true ∧ d.toNat = 0 ∧ s.btnlIe = true then true else s.btnlPend
      lvlL := decide (d.toNat = 1)
      ip := s.ip + 1 }) ∧
    (2 ≤ d.toNat → exec (.pinl d) s = .next { s with
      fault := some ⟨.reservedField, BitVec.ofNat 16 (0x3000 + d.toNat)⟩ })

/-- R103 (falling edge as for R102, log 17): PINR, the mirror of PINL. -/
def Obligations.PinrLatchesOnFallingEdge : Prop :=
  ∀ (s : State) (d : Byte), s.fault = none →
    (d.toNat < 2 → decodeWord (BitVec.ofNat 16 (0x4000 + d.toNat)) = .instr (.pinr d)) ∧
    (d.toNat < 2 → exec (.pinr d) s = .next { s with
      btnrPend := if s.lvlR = true ∧ d.toNat = 0 ∧ s.btnrIe = true then true else s.btnrPend
      lvlR := decide (d.toNat = 1)
      ip := s.ip + 1 }) ∧
    (2 ≤ d.toNat → exec (.pinr d) s = .next { s with
      fault := some ⟨.reservedField, BitVec.ofNat 16 (0x4000 + d.toNat)⟩ })

/-- The spec's "Absorbed events" for MSTICK (R244, derived there from R100): with MS_EN set, a second MSTICK
with no service between changes only IP, and the two count once: they leave MS_PEND set, and the one SVC_MS
that follows adds 1 to MSCNT and leaves no request of the millisecond tick. With MS_EN clear neither
latches. -/
def Obligations.SecondMstickIsAbsorbed : Prop :=
  ∀ s : State, s.fault = none →
    (s.msEn = true → ∃ t u v : State,
      exec .mstick s = .next t ∧ t.msPend = true ∧
      exec .mstick t = .next u ∧ u = { t with ip := t.ip + 1 } ∧ u.msPend = true ∧ u.mscnt = s.mscnt ∧
      exec .svcMs u = .next v ∧ v.mscnt.toNat = (s.mscnt.toNat + 1) % 2 ^ 32 ∧ v.msPend = false ∧
      request v .ms = false) ∧
    (s.msEn = false → execAll [.mstick, .mstick] s = .next { s with ip := s.ip + 2 })

/-! ## Arbitration and service -/

/-- R120, R121: a source requests with its flag and its enable, and the arbiter chooses the requesting
source of the smallest vector number, none when nothing requests. -/
def Obligations.ArbiterServesSmallestRequestingVector : Prop :=
  ∀ s : State,
    (request s .ms = true ↔ s.msPend = true ∧ s.msEn = true) ∧
    (request s .tim = true ↔ s.timPend = true ∧ s.timIe = true) ∧
    (request s .btnl = true ↔ s.btnlPend = true ∧ s.btnlIe = true) ∧
    (request s .btnr = true ↔ s.btnrPend = true ∧ s.btnrIe = true) ∧
    (∀ v : IrqVector, arbitrate s = some v ↔
      request s v = true ∧ ∀ u : IrqVector, request s u = true → v.number.toNat ≤ u.number.toNat) ∧
    (arbitrate s = none ↔ ∀ v : IrqVector, request s v = false)

/-- R124: SVC_MS, vector 0, clears MS_PEND and adds 1 to MSCNT modulo 2^32; nothing else changes. -/
def Obligations.SvcMsCountsMilliseconds : Prop :=
  decode (.vector 0) = .instr .svcMs ∧
  ∀ s : State, s.fault = none → s.msPend = true → s.msEn = true →
    exec .svcMs s = .next { s with
      msPend := false
      mscnt := BitVec.ofNat 32 ((s.mscnt.toNat + 1) % 2 ^ 32) }

/-- R123: ADVANCE clears TIM_PEND, moves POSITION by +1 or -1 modulo 16 by DIRECTION, sets ROLLOVER when
it wraps and never clears it; nothing else changes. -/
def Obligations.AdvanceMovesOneStep : Prop :=
  ∀ s : State,
    (s.direction = .left → advance s = { s with
      timPend := false
      position := BitVec.ofNat 4 ((s.position.toNat + 1) % 16)
      rollover := s.rollover || decide (s.position.toNat = 15) }) ∧
    (s.direction = .right → advance s = { s with
      timPend := false
      position := BitVec.ofNat 4 ((s.position.toNat + 15) % 16)
      rollover := s.rollover || decide (s.position.toNat = 0) })

/-- R125: SVC_TIM, vector 1, when the tick is the highest request, is one ADVANCE. -/
def Obligations.SvcTimAdvances : Prop :=
  decode (.vector 1) = .instr .svcTim ∧
  ∀ s : State, s.fault = none → s.timPend = true → s.timIe = true →
    ¬(s.msPend = true ∧ s.msEn = true) →
    (s.direction = .left → exec .svcTim s = .next { s with
      timPend := false
      position := BitVec.ofNat 4 ((s.position.toNat + 1) % 16)
      rollover := s.rollover || decide (s.position.toNat = 15) }) ∧
    (s.direction = .right → exec .svcTim s = .next { s with
      timPend := false
      position := BitVec.ofNat 4 ((s.position.toNat + 15) % 16)
      rollover := s.rollover || decide (s.position.toNat = 0) })

/-- R126: SVC_BTNL, vector 2, when the left button is the highest request, clears BTNL_PEND; from RIGHT it also
sets LEFT and forces a step of +1; TCNT and everything else stay. -/
def Obligations.SvcBtnlTurnsLeftWithForcedTick : Prop :=
  decode (.vector 2) = .instr .svcBtnl ∧
  ∀ s : State, s.fault = none → s.btnlPend = true → s.btnlIe = true →
    ¬(s.msPend = true ∧ s.msEn = true) → ¬(s.timPend = true ∧ s.timIe = true) →
    (s.direction = .left → exec .svcBtnl s = .next { s with btnlPend := false }) ∧
    (s.direction = .right → exec .svcBtnl s = .next { s with
      btnlPend := false
      direction := .left
      timPend := false
      position := BitVec.ofNat 4 ((s.position.toNat + 1) % 16)
      rollover := s.rollover || decide (s.position.toNat = 15) })

/-- R127: SVC_BTNR, vector 3, when the right button is the highest request, the mirror of SVC_BTNL. -/
def Obligations.SvcBtnrTurnsRightWithForcedTick : Prop :=
  decode (.vector 3) = .instr .svcBtnr ∧
  ∀ s : State, s.fault = none → s.btnrPend = true → s.btnrIe = true →
    ¬(s.msPend = true ∧ s.msEn = true) → ¬(s.timPend = true ∧ s.timIe = true) →
    ¬(s.btnlPend = true ∧ s.btnlIe = true) →
    (s.direction = .right → exec .svcBtnr s = .next { s with btnrPend := false }) ∧
    (s.direction = .left → exec .svcBtnr s = .next { s with
      btnrPend := false
      direction := .right
      timPend := false
      position := BitVec.ofNat 4 ((s.position.toNat + 15) % 16)
      rollover := s.rollover || decide (s.position.toNat = 0) })

/-- The model's choice (log 6) of what R121 and R122 leave without a step: a service step whose vector the
arbiter does not choose stops. -/
def Obligations.UnselectedServiceStops : Prop :=
  ∀ (s : State) (v : IrqVector), s.fault = none → arbitrate s ≠ some v →
    exec (serviceInstr v) s = .fault (.serviceNotSelected v)

/-- R122, R207, R208: a service step is enabled exactly when FAULT is none and the arbiter chooses it; it
changes no IP, HLOG, FAULT, enable, timer count, reload, level, SPEED_LEVEL or LED, and nothing of the
trace, the schedule or the parameters. -/
def Obligations.ServiceStepFrame : Prop :=
  ∀ (s : State) (v : IrqVector),
    ((∃ t : State, exec (serviceInstr v) s = .next t) ↔ s.fault = none ∧ arbitrate s = some v) ∧
    ∀ t : State, exec (serviceInstr v) s = .next t →
      t.ip = s.ip ∧ t.hlog = s.hlog ∧ t.fault = none ∧
      t.msEn = s.msEn ∧ t.timIe = s.timIe ∧ t.timCen = s.timCen ∧ t.btnlIe = s.btnlIe ∧
      t.btnrIe = s.btnrIe ∧ t.tcnt = s.tcnt ∧ t.treload = s.treload ∧ t.lvlL = s.lvlL ∧
      t.lvlR = s.lvlR ∧ t.speedLevel = s.speedLevel ∧ t.led = s.led ∧ t.trace = s.trace ∧
      t.schedule = s.schedule ∧ t.params = s.params

/-- The spec's "Simultaneous button requests" (R128, derived there from R121, R126, R127): with both
buttons requesting and nothing higher, left is served, then right; the final direction is RIGHT. From
RIGHT the position comes back and ROLLOVER is set if it was 15; from LEFT it moves by -1. -/
def Obligations.BothButtonsServeLeftThenRight : Prop :=
  ∀ s : State, s.fault = none → request s .ms = false → request s .tim = false →
    request s .btnl = true → request s .btnr = true →
    ∃ t u : State, exec .svcBtnl s = .next t ∧ arbitrate t = some .btnr ∧
      exec .svcBtnr t = .next u ∧ arbitrate u = none ∧ u.direction = .right ∧
      u.btnlPend = false ∧ u.btnrPend = false ∧
      (s.direction = .right → u.position = s.position ∧
        u.rollover = (s.rollover || decide (s.position.toNat = 15))) ∧
      (s.direction = .left → u.position.toNat = (s.position.toNat + 15) % 16 ∧
        u.rollover = (s.rollover || decide (s.position.toNat = 0)))

/-- The spec's "The forced tick" (R129, derived there from R121, R126, R127): a button is served with
TIM_PEND set only when TIM_IE is clear, and DIRECTION changes in a step only together with a step of
POSITION in the new direction, which absorbs the pending tick. -/
def Obligations.ForcedTickComesWithTheTurn : Prop :=
  ∀ (s t : State) (v : IrqVector), v = .btnl ∨ v = .btnr →
    exec (serviceInstr v) s = .next t →
    (s.timPend = true → s.timIe = false) ∧
    (t.direction ≠ s.direction → t.timPend = false ∧
      (t.direction = .left → t.position.toNat = (s.position.toNat + 1) % 16) ∧
      (t.direction = .right → t.position.toNat = (s.position.toNat + 15) % 16)) ∧
    (t.direction = s.direction → t.position = s.position ∧ t.rollover = s.rollover ∧
      t.timPend = s.timPend)

/-! ## Host reads -/

/-- R153, R154, R157, R167: RD POS, RD DIR, RD SPEED and RD SNAP append the layout's value and change
nothing else but IP. -/
def Obligations.ReadsOfTheSharedState : Prop :=
  decodeWord 0x5000 = .instr .rdPos ∧ decodeWord 0x5100 = .instr .rdDir ∧
  decodeWord 0x5300 = .instr .rdSpeed ∧ decodeWord 0x5B00 = .instr .rdSnap ∧
  ∀ s : State, HostMayRun s →
    exec .rdPos s = .next { s with
      hlog := s.hlog ++ [(0x0, BitVec.ofNat 32 s.position.toNat)], ip := s.ip + 1 } ∧
    exec .rdDir s = .next { s with
      hlog := s.hlog ++ [(0x1, BitVec.ofNat 32 (if s.direction = .right then 1 else 0))]
      ip := s.ip + 1 } ∧
    exec .rdSpeed s = .next { s with
      hlog := s.hlog ++ [(0x3, BitVec.ofNat 32 s.speedLevel.toNat)], ip := s.ip + 1 } ∧
    exec .rdSnap s = .next { s with
      hlog := s.hlog ++ [(0xB, BitVec.ofNat 32 (s.position.toNat
        + 16 * (if s.direction = .right then 1 else 0) + 32 * s.rollover.toNat
        + 64 * s.speedLevel.toNat))]
      ip := s.ip + 1 }

/-- R155, R159, R168: RD STATUS, RD CTRL and RD PINS append the layout's value and change nothing else
but IP; a pending bit that reads 1 has its enable 0. -/
def Obligations.ReadsOfFlagsEnablesAndPins : Prop :=
  decodeWord 0x5200 = .instr .rdStatus ∧ decodeWord 0x5400 = .instr .rdCtrl ∧
  decodeWord 0x5C00 = .instr .rdPins ∧
  ∀ s : State, HostMayRun s →
    exec .rdStatus s = .next { s with
      hlog := s.hlog ++ [(0x2, BitVec.ofNat 32 (s.rollover.toNat + 2 * s.msPend.toNat
        + 4 * s.timPend.toNat + 8 * s.btnlPend.toNat + 16 * s.btnrPend.toNat))]
      ip := s.ip + 1 } ∧
    (s.msPend = true → s.msEn = false) ∧ (s.timPend = true → s.timIe = false) ∧
    (s.btnlPend = true → s.btnlIe = false) ∧ (s.btnrPend = true → s.btnrIe = false) ∧
    exec .rdCtrl s = .next { s with
      hlog := s.hlog ++ [(0x4, BitVec.ofNat 32 (s.msEn.toNat + 2 * s.timIe.toNat
        + 4 * s.timCen.toNat + 8 * s.btnlIe.toNat + 16 * s.btnrIe.toNat))]
      ip := s.ip + 1 } ∧
    exec .rdPins s = .next { s with
      hlog := s.hlog ++ [(0xC, BitVec.ofNat 32 (s.lvlL.toNat + 2 * s.lvlR.toNat))]
      ip := s.ip + 1 }

/-- R161, R162, R163, R164: RD MSCNT, RD TCNT, RD TRELOAD and RD LED append the field's value and change
nothing else but IP; under the invariants TRELOAD reads RELOAD(SPEED_LEVEL). -/
def Obligations.ReadsOfCountersAndLed : Prop :=
  decodeWord 0x5500 = .instr .rdMscnt ∧ decodeWord 0x5600 = .instr .rdTcnt ∧
  decodeWord 0x5700 = .instr .rdTreload ∧ decodeWord 0x5800 = .instr .rdLed ∧
  ∀ s : State, HostMayRun s →
    exec .rdMscnt s = .next { s with hlog := s.hlog ++ [(0x5, s.mscnt)], ip := s.ip + 1 } ∧
    exec .rdTcnt s = .next { s with hlog := s.hlog ++ [(0x6, s.tcnt)], ip := s.ip + 1 } ∧
    exec .rdTreload s = .next { s with hlog := s.hlog ++ [(0x7, s.treload)], ip := s.ip + 1 } ∧
    (Inv s → exec .rdTreload s = .next { s with
      hlog := s.hlog ++ [(0x7, s.reload s.speedLevel)], ip := s.ip + 1 }) ∧
    exec .rdLed s = .next { s with
      hlog := s.hlog ++ [(0x8, BitVec.ofNat 32 s.led.toNat)], ip := s.ip + 1 }

/-- The spec's R55 (derived there from R151 to R168): a read changes only HLOG and IP, and reading again
at once returns the same pair; a legal write repeated at once changes only IP. -/
def Obligations.HostAccessesAreIdempotent : Prop :=
  (∀ (i : Instr) (s t : State), isRead i = true → exec i s = .next t →
    ∃ p : HostAddr × RegVal, t = { s with hlog := s.hlog ++ [p], ip := s.ip + 1 } ∧
      exec i t = .next { t with hlog := t.hlog ++ [p], ip := t.ip + 1 }) ∧
  (∀ (i : Instr) (s t : State), isWrite i = true → WellFormed i = true → exec i s = .next t →
    arbitrate t = none → exec i t = .next { t with ip := t.ip + 1 })

/-- R150: while a request is pending a host word stays at IP and the arbiter's service step is the one
step there is, whatever the schedule (the model's own field, log 2) names. For a word with OP 5 or 6 that
does not decode this is the model's reading of a point the spec is silent on (log 7). -/
def Obligations.HostWordWaitsForService : Prop :=
  ∀ (s : State) (w : Word) (v : IrqVector), s.fault = none → fetch s = some w →
    isHostWord w = true → arbitrate s = some v →
    ∃ t : State, step s = .next t ∧ exec (serviceInstr v) s = .next t ∧ t.ip = s.ip ∧
      fetch t = some w ∧ t.hlog = s.hlog

/-- The model's choice (log 6) of what R150 leaves without a step: a host operation run while a request is
pending stops. -/
def Obligations.HeldHostOperationStops : Prop :=
  ∀ (s : State) (i : Instr), isRead i = true ∨ isWrite i = true → s.fault = none →
    arbitrate s ≠ none → exec i s = .fault .hostWordHeld

/-! ## Host writes -/

/-- R156: WR STATUS clears ROLLOVER when D[0] is 1 and changes nothing else but IP; a nonzero D[7:1]
takes the fault RESERVED_FIELD. -/
def Obligations.WrStatusClearsRollover : Prop :=
  ∀ (s : State) (d : Byte), HostMayRun s →
    (d.toNat < 2 → decodeWord (BitVec.ofNat 16 (0x6200 + d.toNat)) = .instr (.wrStatus d)) ∧
    (d.toNat < 2 → exec (.wrStatus d) s = .next { s with
      rollover := if d.toNat = 1 then false else s.rollover
      ip := s.ip + 1 }) ∧
    (2 ≤ d.toNat → exec (.wrStatus d) s = .next { s with
      fault := some ⟨.reservedField, BitVec.ofNat 16 (0x6200 + d.toNat)⟩ })

/-- R158: WR SPEED sets SPEED_LEVEL, TRELOAD = RELOAD(level) and TCNT = 0, and leaves TIM_PEND and all
else but IP; a nonzero D[7:2] takes the fault RESERVED_FIELD. -/
def Obligations.WrSpeedReprogramsTheTimer : Prop :=
  ∀ (s : State) (d : Byte), HostMayRun s →
    (d.toNat < 4 → decodeWord (BitVec.ofNat 16 (0x6300 + d.toNat)) = .instr (.wrSpeed d)) ∧
    (d.toNat < 4 → exec (.wrSpeed d) s = .next { s with
      speedLevel := BitVec.ofNat 2 d.toNat
      treload := s.reload (BitVec.ofNat 2 d.toNat)
      tcnt := 0
      ip := s.ip + 1 }) ∧
    (4 ≤ d.toNat → exec (.wrSpeed d) s = .next { s with
      fault := some ⟨.reservedField, BitVec.ofNat 16 (0x6300 + d.toNat)⟩ })

/-- R160: WR CTRL sets the five enables from D[4:0] and changes nothing else but IP; a nonzero D[7:5]
takes the fault RESERVED_FIELD. -/
def Obligations.WrCtrlSetsTheEnables : Prop :=
  ∀ (s : State) (d : Byte), HostMayRun s →
    (d.toNat < 32 → decodeWord (BitVec.ofNat 16 (0x6400 + d.toNat)) = .instr (.wrCtrl d)) ∧
    (d.toNat < 32 → exec (.wrCtrl d) s = .next { s with
      msEn := d.toNat.testBit 0
      timIe := d.toNat.testBit 1
      timCen := d.toNat.testBit 2
      btnlIe := d.toNat.testBit 3
      btnrIe := d.toNat.testBit 4
      ip := s.ip + 1 }) ∧
    (32 ≤ d.toNat → exec (.wrCtrl d) s = .next { s with
      fault := some ⟨.reservedField, BitVec.ofNat 16 (0x6400 + d.toNat)⟩ })

/-- R165: WR LEDSET sets the one LED bit of its position and changes nothing else but IP; a nonzero
D[7:4] takes the fault RESERVED_FIELD. -/
def Obligations.WrLedsetTurnsOneLineOn : Prop :=
  ∀ (s : State) (d : Byte), HostMayRun s →
    (d.toNat < 16 → decodeWord (BitVec.ofNat 16 (0x6900 + d.toNat)) = .instr (.wrLedset d)) ∧
    (d.toNat < 16 → ∃ l : BitVec 16,
      exec (.wrLedset d) s = .next { s with led := l, ip := s.ip + 1 } ∧
      ∀ k : Nat, k < 16 → l.getLsbD k = if k = d.toNat then true else s.led.getLsbD k) ∧
    (16 ≤ d.toNat → exec (.wrLedset d) s = .next { s with
      fault := some ⟨.reservedField, BitVec.ofNat 16 (0x6900 + d.toNat)⟩ })

/-- R166: WR LEDCLR clears the one LED bit of its position and changes nothing else but IP; a nonzero
D[7:4] takes the fault RESERVED_FIELD. -/
def Obligations.WrLedclrTurnsOneLineOff : Prop :=
  ∀ (s : State) (d : Byte), HostMayRun s →
    (d.toNat < 16 → decodeWord (BitVec.ofNat 16 (0x6A00 + d.toNat)) = .instr (.wrLedclr d)) ∧
    (d.toNat < 16 → ∃ l : BitVec 16,
      exec (.wrLedclr d) s = .next { s with led := l, ip := s.ip + 1 } ∧
      ∀ k : Nat, k < 16 → l.getLsbD k = if k = d.toNat then false else s.led.getLsbD k) ∧
    (16 ≤ d.toNat → exec (.wrLedclr d) s = .next { s with
      fault := some ⟨.reservedField, BitVec.ofNat 16 (0x6A00 + d.toNat)⟩ })

/-- The spec's "Latched flags across enable changes" (R246, derived there from R120 and R160): a CTRL write
leaves every pending flag, and each source then requests exactly when its flag is set and its new enable
is. -/
def Obligations.LatchedFlagsSurviveEnableChanges : Prop :=
  ∀ (s : State) (d : Byte), HostMayRun s → d.toNat < 32 →
    ∃ t : State, exec (.wrCtrl d) s = .next t ∧
      t.msPend = s.msPend ∧ t.timPend = s.timPend ∧ t.btnlPend = s.btnlPend ∧
      t.btnrPend = s.btnrPend ∧
      request t .ms = (s.msPend && d.toNat.testBit 0) ∧
      request t .tim = (s.timPend && d.toNat.testBit 1) ∧
      request t .btnl = (s.btnlPend && d.toNat.testBit 3) ∧
      request t .btnr = (s.btnrPend && d.toNat.testBit 4)

/-! ## Faults -/

/-- The spec's R203: a word that does not decode, at its turn, sets FAULT to its code and the word and
changes nothing else (but for the turn it uses up); after that no event, host word, RESET or service step
runs and the machine is stopped, not final. That a word which is no host word may take its fault while a
request is pending is the model's reading of a point the spec is silent on (log 7), when it does so is up
to the schedule (the model's own field, log 2), and the stop's name is the model's (log 4). -/
def Obligations.FaultIsPreciseAndSticky : Prop :=
  (∀ (s : State) (w : Word) (c : FaultCode), s.fault = none → fetch s = some w →
    decodeWord w = .reject c →
    (arbitrate s = none → step s = .next { s with fault := some ⟨c, w⟩ }) ∧
    (∀ (v : IrqVector) (rest : List Turn), arbitrate s = some v → isHostWord w = false →
      s.schedule = .word :: rest →
      step s = .next { s with fault := some ⟨c, w⟩, schedule := rest })) ∧
  (∀ (s : State) (r : FaultRecord), s.fault = some r →
    step s = .fault (.faulted r) ∧ ¬ Final s ∧ ∀ i : Instr, exec i s = .fault (.faulted r))

/-- R106, R201: no service step faults, and no operation whose data byte keeps the constraints of R72
does. -/
def Obligations.DecodedOperationsNeverFault : Prop :=
  ∀ (i : Instr) (s t : State), WellFormed i = true → exec i s = .next t → t.fault = none

/-- R132 and R203: within the trace, the machine stops only in a faulted state, by its fault, and in a
final state, as ended; everywhere else there is a next state. The stops' names are the model's (log 4,
log 5). -/
def Obligations.OnlyFaultedAndFinalStatesStop : Prop :=
  ∀ s : State, s.ip ≤ s.trace.length →
    (∀ r : FaultRecord, s.fault = some r → step s = .fault (.faulted r)) ∧
    (Final s → step s = .fault .runEnded) ∧
    (s.fault = none → ¬ Final s → ∃ t : State, step s = .next t)

/-! ## The step -/

/-- R131, R133, R150: a step is exec of the decoded word, or of the arbiter's service step. With no
request the word runs; a held host word gives way to the service step; at a choice point the schedule's
next turn decides (the model's own field, log 2), and service comes when it names none. -/
def Obligations.StepRunsTheDecodedOperation : Prop :=
  ∀ s : State, s.fault = none →
    (∀ (w : Word) (i : Instr), fetch s = some w → decodeWord w = .instr i →
      (arbitrate s = none → step s = exec i s) ∧
      (∀ v : IrqVector, arbitrate s = some v → isHostWord w = true →
        step s = exec (serviceInstr v) s) ∧
      (∀ v : IrqVector, arbitrate s = some v → isHostWord w = false →
        (∀ rest : List Turn, s.schedule = .word :: rest →
          step s = exec i { s with schedule := rest }) ∧
        (∀ rest : List Turn, s.schedule = .service :: rest →
          step s = exec (serviceInstr v) { s with schedule := rest }) ∧
        (s.schedule = [] → step s = exec (serviceInstr v) s))) ∧
    (∀ v : IrqVector, fetch s = none → arbitrate s = some v → step s = exec (serviceInstr v) s)

/-- The model's withFetchWord (log 10): for every operation the opcode table's bits decode to, the next
step of the prepared state runs exactly it and answers a next state. -/
def Obligations.PlacedOperationRunsNext : Prop :=
  ∀ (s : State) (nbits w : Nat) (i : Instr), decodeTableWord nbits w = some i →
    ∃ t u : State, t = takeTurn (s.withFetchWord nbits w) ∧
      step (s.withFetchWord nbits w) = exec i t ∧ exec i t = .next u

/-- R131: every step that answers a next state is, from the state whose turn has been taken, one
transition of the interleaving, whichever turns the schedule (the model's own field, log 2) names. WHEN a
word that does not decode may take its fault (the clause `badWord` of `Transition`: one with OP 5 or 6 only
with no request pending, any other at any time) is the model's choice (log 7), no rule of the spec. -/
def Obligations.EveryStepIsATransition : Prop :=
  ∀ s t : State, step s = .next t → Transition { s with schedule := t.schedule } t

/-- R131: every finite run of the interleaving is the run of `step` under some schedule. The schedule is
the model's (log 2); the relation `Transition` names none. WHEN a word that does not decode may take its
fault (the clause `badWord` of `Transition`) is the model's choice (log 7), no rule of the spec. -/
def Obligations.ScheduleRealisesEveryRun : Prop :=
  ∀ s t : State, Relation.ReflTransGen Transition s t →
    ∃ (n : Nat) (turns : List Turn),
      Host.Core.run Sys2Proof.core n { s with schedule := turns } = .next t

/-- R133: while the schedule (the model's own field) names no turn, which the model takes as the eager
schedule (its choice, log 2), service comes first: from any state without fault at most four steps clear
REQ, and they consume no word. -/
def Obligations.EagerServiceClearsRequests : Prop :=
  ∀ s : State, s.fault = none → s.schedule = [] →
    ∃ (k : Nat) (t : State), k ≤ 4 ∧ Host.Core.run Sys2Proof.core k s = .next t ∧
      arbitrate t = none ∧ t.ip = s.ip ∧ t.hlog = s.hlog ∧ t.fault = none

/-- R131, R132: under every schedule (log 2) a run of a finite trace stops, final or faulted, within twice the
words left plus the pending flags plus one steps. -/
def Obligations.EveryRunOfATraceEnds : Prop :=
  ∀ s : State, s.fault = none → s.ip ≤ s.trace.length →
    ∃ (k : Nat) (t : State),
      k ≤ 2 * (s.trace.length - s.ip) + pendingCount s + 1 ∧
      Host.Core.run Sys2Proof.core k s = .next t ∧ (Final t ∨ Faulted t)

/-! ## Invariants and whole-machine rules -/

/-- The invariants hold of the initial state (R36; its IP and FAULT clauses are the model's
bookkeeping). -/
def Obligations.InvariantHoldsAtReset : Prop := Inv State.reset

/-- Every step from a state that meets the invariants gives one that does. Two clauses are the spec's R36
(c) and (d) (derived there): TRELOAD = RELOAD(SPEED_LEVEL) and TCNT ≤ TRELOAD. The other two are no part of
R36 but the model's bookkeeping: IP stays within the trace (R32, R132; log 1) and FAULT is what the word at
IP decodes to (R203; log 4). -/
def Obligations.StepKeepsInvariant : Prop :=
  ∀ s t : State, Inv s → step s = .next t → Inv t

/-- No step writes the trace (R62), IP grows by one or stays (R32), and HLOG only grows at its end (R33). Nor
does a step write `params`, the model's own field for the OPEN parameters (its choice, log 3; R6, R31). -/
def Obligations.StepKeepsTraceAndExtendsLog : Prop :=
  ∀ s t : State, step s = .next t →
    t.trace = s.trace ∧ t.params = s.params ∧ (t.ip = s.ip ∨ t.ip = s.ip + 1) ∧
    (t.hlog = s.hlog ∨ ∃ p : HostAddr × RegVal, t.hlog = s.hlog ++ [p]) ∧
    (t.ip = s.ip → t.hlog = s.hlog)

/-- The "written by" column of R20 (with R21 to R25, R32 to R34): every field of R20's table changes only by
the operations the table names; ROLLOVER is set only by a handler's ADVANCE and cleared only by WR STATUS
and RESET; IP changes only by an operation word, and FAULT only by an operation whose data byte breaks R72
(a word that decodes to no operation faults in `step`: FaultIsPreciseAndSticky). -/
def Obligations.FieldsChangeOnlyByTheirWriters : Prop :=
  ∀ (i : Instr) (s t : State), exec i s = .next t →
    (t.position ≠ s.position → i = .svcTim ∨ i = .svcBtnl ∨ i = .svcBtnr ∨ i = .reset) ∧
    (t.direction ≠ s.direction → i = .svcBtnl ∨ i = .svcBtnr ∨ i = .reset) ∧
    (t.speedLevel ≠ s.speedLevel → (∃ d, i = .wrSpeed d) ∨ i = .reset) ∧
    (t.rollover = true ∧ s.rollover = false → i = .svcTim ∨ i = .svcBtnl ∨ i = .svcBtnr) ∧
    (t.rollover = false ∧ s.rollover = true → (∃ d, i = .wrStatus d) ∨ i = .reset) ∧
    (t.mscnt ≠ s.mscnt → i = .svcMs ∨ i = .reset) ∧
    (t.msPend ≠ s.msPend → i = .mstick ∨ i = .svcMs ∨ i = .reset) ∧
    (t.timPend ≠ s.timPend → i = .tclk ∨ i = .svcTim ∨ i = .svcBtnl ∨ i = .svcBtnr ∨ i = .reset) ∧
    (t.btnlPend ≠ s.btnlPend → (∃ d, i = .pinl d) ∨ i = .svcBtnl ∨ i = .reset) ∧
    (t.btnrPend ≠ s.btnrPend → (∃ d, i = .pinr d) ∨ i = .svcBtnr ∨ i = .reset) ∧
    (t.msEn ≠ s.msEn ∨ t.timIe ≠ s.timIe ∨ t.timCen ≠ s.timCen ∨ t.btnlIe ≠ s.btnlIe ∨
      t.btnrIe ≠ s.btnrIe → (∃ d, i = .wrCtrl d) ∨ i = .reset) ∧
    (t.tcnt ≠ s.tcnt → i = .tclk ∨ (∃ d, i = .wrSpeed d) ∨ i = .reset) ∧
    (t.treload ≠ s.treload → (∃ d, i = .wrSpeed d) ∨ i = .reset) ∧
    (t.lvlL ≠ s.lvlL → (∃ d, i = .pinl d) ∨ i = .reset) ∧
    (t.lvlR ≠ s.lvlR → (∃ d, i = .pinr d) ∨ i = .reset) ∧
    (t.led ≠ s.led → (∃ d, i = .wrLedset d) ∨ (∃ d, i = .wrLedclr d) ∨ i = .reset) ∧
    (t.hlog ≠ s.hlog → isRead i = true) ∧
    (t.ip ≠ s.ip → isService i = false) ∧
    (t.fault ≠ s.fault → WellFormed i = false)

/-- R6, R31, R56: F_TCLK, LED_TABLE, DEBOUNCE_DELAY and HOST_BASE enter no rule: a step of a state with
other values of them is the same step, and they stay. -/
def Obligations.UnusedParametersEnterNoRule : Prop :=
  ∀ (s : State) (p : Params), p.reloadTable = s.params.reloadTable →
    step { s with params := p } = mapNext (fun t => { t with params := p }) (step s)

/-- R124 with I9 of the spec: MSCNT has no consumer but the host read: every other operation does the same
whatever MSCNT holds, and only SVC_MS and RESET give it a value. -/
def Obligations.MscntHasNoConsumer : Prop :=
  ∀ (i : Instr) (s : State) (n : BitVec 32), i ≠ .rdMscnt → i ≠ .svcMs → i ≠ .reset →
    exec i { s with mscnt := n } = mapNext (fun t => { t with mscnt := n }) (exec i s)

/-- R30, R31 (with R6's 16 distinct identifiers): different positions have different lines, the line of
position p is driven high exactly when bit p of LED is 1, and a line of no position is never driven. -/
def Obligations.LinesFollowTheLedImage : Prop :=
  ∀ s : State, LedTableDistinct s ∧
    (∀ p : BitVec 4, lineHigh s (lineOf s p) = s.led.getLsbD p.toNat) ∧
    (∀ line : Nat, (∀ p : BitVec 4, lineOf s p ≠ line) → lineHigh s line = false)

/-! ## Encoding -/

/-- Decoding the code of a well-formed operation gives it back, for every operation and every operand
its encoding admits (R76, R75). -/
def Obligations.DecodeOfEncodeIsTheOperation : Prop :=
  ∀ i : Instr, WellFormed i = true → decode (encode i) = .instr i

/-- Every code that decodes is the code of what it decodes to, which is well-formed: one meaning for each
word and each vector number (R76, R78). -/
def Obligations.EncodeOfDecodeIsTheCode : Prop :=
  ∀ (c : Code) (i : Instr), decode c = .instr i → encode i = c ∧ WellFormed i = true

/-- R76: a word decodes exactly when it matches a row of the opcode map, and no word matches two. -/
def Obligations.DecodingAcceptsExactlyTheOpcodeMap : Prop :=
  (∀ w : Word, (∃ i : Instr, decodeWord w = .instr i) ↔
    ∃ r ∈ opcodeMap, w &&& r.mask = r.pattern) ∧
  (∀ (w : Word) (r q : MapRow), r ∈ opcodeMap → q ∈ opcodeMap →
    w &&& r.mask = r.pattern → w &&& q.mask = q.pattern → r = q)

/-- R77, R202: a word that matches no row reports the first failing check and no other. -/
def Obligations.RejectionsFollowTheCheckOrder : Prop :=
  ∀ w : Word, (¬ ∃ r ∈ opcodeMap, w &&& r.mask = r.pattern) →
    let op := w.toNat / 0x1000
    let a := w.toNat / 0x100 % 16
    decodeWord w = .reject
      (if op = 0 ∨ 8 ≤ op then .illegalOpcode
       else if (op = 1 ∨ op = 2 ∨ op = 3 ∨ op = 4 ∨ op = 7) ∧ a ≠ 0 then .reservedField
       else if 13 ≤ a then .reservedAddress
       else if op = 6 ∧ (a = 0 ∨ a = 1 ∨ a = 5 ∨ a = 6 ∨ a = 7 ∨ a = 8 ∨ a = 11 ∨ a = 12) then
         .readOnlyWrite
       else if op = 5 ∧ (a = 9 ∨ a = 10) then .writeOnlyRead
       else .reservedField)

/-- Words written out from the spec's encodings (R76) and its decoding vectors (95_test_vectors.md 2.1). -/
def Obligations.SampleWordsDecode : Prop :=
  decodeWord 0x1000 = .instr .mstick ∧ decodeWord 0x2000 = .instr .tclk ∧
  decodeWord 0x3001 = .instr (.pinl 1) ∧ decodeWord 0x4000 = .instr (.pinr 0) ∧
  decodeWord 0x5B00 = .instr .rdSnap ∧ decodeWord 0x5700 = .instr .rdTreload ∧
  decodeWord 0x6303 = .instr (.wrSpeed 3) ∧ decodeWord 0x641F = .instr (.wrCtrl 0x1F) ∧
  decodeWord 0x690F = .instr (.wrLedset 15) ∧ decodeWord 0x7000 = .instr .reset ∧
  decodeWord 0x5901 = .reject .writeOnlyRead ∧ decodeWord 0x6304 = .reject .reservedField ∧
  decodeWord 0x6D01 = .reject .reservedAddress ∧ decodeWord 0x6B00 = .reject .readOnlyWrite ∧
  decodeWord 0xF5FF = .reject .illegalOpcode

/-- R81: a stored trace reads back, low byte first, and a byte file of odd length is refused. -/
def Obligations.StoredTraceReadsBack : Prop :=
  (∀ ws : List Word, readTrace (storeTrace ws) = some ws) ∧
  (∀ w : Word, (storeTrace [w]).map BitVec.toNat = [w.toNat % 256, w.toNat / 256]) ∧
  (∀ bs : List Byte, readTrace bs = none ↔ bs.length % 2 = 1)

/-- R79, with what it leaves open of the text as log 12 has it: every operation's own line assembles to its
word, a number is written decimal or after 0x or 0b, a register by its name or number, a comment changes
nothing; a line whose operand is out of range or whose word would fault is refused; a text with a refused
line is refused naming the first, and any other gives its lines' words in order, every one of which decodes.
A pseudo-operation's line assembles to its expansion (R80). -/
def Obligations.AssemblerGivesOnlyLegalWords : Prop :=
  (assembleLine "MSTICK".toList = some [0x1000] ∧ assembleLine "TCLK".toList = some [0x2000] ∧
    assembleLine "RESET".toList = some [0x7000]) ∧
  (∀ (t : List Char) (n : Nat), parseNumber t = some n →
    assembleLine ("PINL ".toList ++ t) =
      (if n < 2 then some [BitVec.ofNat 16 (0x3000 + n)] else none) ∧
    assembleLine ("PINR ".toList ++ t) =
      (if n < 2 then some [BitVec.ofNat 16 (0x4000 + n)] else none)) ∧
  (∀ (r : List Char) (a : Nat),
    (∃ q : HostReg, r = regName q ∧ a = q.addr.toNat) ∨ parseNumber r = some a →
    (∀ i : Instr, a < 16 → decodeWord (BitVec.ofNat 16 (0x5000 + 256 * a)) = .instr i →
      assembleLine ("RD ".toList ++ r) = some [BitVec.ofNat 16 (0x5000 + 256 * a)]) ∧
    (∀ c : FaultCode, 16 ≤ a ∨ decodeWord (BitVec.ofNat 16 (0x5000 + 256 * a)) = .reject c →
      assembleLine ("RD ".toList ++ r) = none) ∧
    (∀ (t : List Char) (n : Nat), parseNumber t = some n →
      (∀ i : Instr, a < 16 → n < 256 →
        decodeWord (BitVec.ofNat 16 (0x6000 + 256 * a + n)) = .instr i →
        assembleLine ("WR ".toList ++ r ++ ", ".toList ++ t) =
          some [BitVec.ofNat 16 (0x6000 + 256 * a + n)]) ∧
      (∀ c : FaultCode, 16 ≤ a ∨ 256 ≤ n ∨
          decodeWord (BitVec.ofNat 16 (0x6000 + 256 * a + n)) = .reject c →
        assembleLine ("WR ".toList ++ r ++ ", ".toList ++ t) = none))) ∧
  (∀ n : Nat, n < 256 → parseNumber (Nat.toDigits 10 n) = some n ∧
    parseNumber ("0x".toList ++ Nat.toDigits 16 n) = some n ∧
    parseNumber ("0b".toList ++ Nat.toDigits 2 n) = some n) ∧
  (∀ line comment : List Char, assembleLine (line ++ ';' :: comment) = assembleLine line) ∧
  (∀ (before after : List (List Char)) (line : List Char),
    (∀ l ∈ before, (assembleLine l).isSome = true) → assembleLine line = none →
    assemble (before ++ line :: after) = .refused (before.length + 1)) ∧
  (∀ (lines : List (List Char)) (f : List Char → List Word),
    (∀ l ∈ lines, assembleLine l = some (f l)) → assemble lines = .words (lines.flatMap f)) ∧
  (∀ (lines : List (List Char)) (ws : List Word), assemble lines = .words ws →
    ∀ w ∈ ws, ∃ i : Instr, decodeWord w = .instr i) ∧
  (assembleLine "PRESSL".toList = assembleOps (expand .pressl) ∧
    assembleLine "RELEASEL".toList = assembleOps (expand .releasel) ∧
    assembleLine "CLICKL".toList = assembleOps (expand .clickl) ∧
    assembleLine "PRESSR".toList = assembleOps (expand .pressr) ∧
    assembleLine "RELEASER".toList = assembleOps (expand .releaser) ∧
    assembleLine "CLICKR".toList = assembleOps (expand .clickr) ∧
    assembleLine "ACKROLL".toList = assembleOps (expand .ackroll)) ∧
  (∀ (t : List Char) (n : Nat), parseNumber t = some n →
    assembleLine ("TICKS ".toList ++ t) = assembleOps (expand (.ticks n)) ∧
    assembleLine ("MSTICKS ".toList ++ t) = assembleOps (expand (.msticks n)) ∧
    assembleLine ("LEDON ".toList ++ t) = assembleOps (expand (.ledon n)) ∧
    assembleLine ("LEDOFF ".toList ++ t) = assembleOps (expand (.ledoff n)) ∧
    assembleLine ("SETSPEED ".toList ++ t) = assembleOps (expand (.setspeed n)))

/-- R80: the pseudo-operations expand to the words the table gives. -/
def Obligations.PseudoOperationsExpand : Prop :=
  assembleOps (expand .pressl) = some [0x3000] ∧ assembleOps (expand .releasel) = some [0x3001] ∧
  assembleOps (expand .clickl) = some [0x3000, 0x3001] ∧
  assembleOps (expand .pressr) = some [0x4000] ∧ assembleOps (expand .releaser) = some [0x4001] ∧
  assembleOps (expand .clickr) = some [0x4000, 0x4001] ∧
  assembleOps (expand .ackroll) = some [0x6201] ∧
  (∀ n : Nat, assembleOps (expand (.ticks n)) = some (List.replicate n 0x2000) ∧
    assembleOps (expand (.msticks n)) = some (List.replicate n 0x1000)) ∧
  (∀ p : Nat, p < 16 → assembleOps (expand (.ledon p)) = some [BitVec.ofNat 16 (0x6900 + p)] ∧
    assembleOps (expand (.ledoff p)) = some [BitVec.ofNat 16 (0x6A00 + p)]) ∧
  (∀ l : Nat, l < 4 → assembleOps (expand (.setspeed l)) = some [BitVec.ofNat 16 (0x6300 + l)])

/-! ## Host procedures -/

/-- R231: from any state with no fault and no flag latched, the startup words, with no event or service
step between them (log 15), all run; after them the five enables are 1, so CTRL reads 0x1F, and the timer
is at level 0 with TCNT = 0. -/
def Obligations.StartupEnablesEverySource : Prop :=
  ∀ s : State, s.fault = none → pendingCount s = 0 →
    ∃ t : State, execAll startupSequence s = .next t ∧
      t = { s with
        msEn := true, timIe := true, timCen := true, btnlIe := true, btnrIe := true
        speedLevel := 0, treload := s.reload 0, tcnt := 0, ip := s.ip + 5 } ∧
      exec .rdCtrl t = .next { t with hlog := t.hlog ++ [(0x4, 0x1F)], ip := t.ip + 1 }

/-- R170: one display run, with no other step between its words (log 15), reads SNAP, then turns the
current position on and the previous one along the direction of travel off; a second run changes no
line. -/
def Obligations.DisplayRunMovesTheLitLine : Prop :=
  ∀ s : State, HostMayRun s →
    ∃ t u : State, displayRun s = .next t ∧ displayRun t = .next u ∧ u.led = t.led ∧
      t = { s with led := t.led, hlog := s.hlog ++ [(0xB, snapValue s)], ip := s.ip + 3 } ∧
      ∀ q : BitVec 4, lit t q =
        if q = s.position then true
        else if q.toNat = (if s.direction = .left then (s.position.toNat + 15) % 16
          else (s.position.toNat + 1) % 16) then false
        else lit s q

/-- The spec's "Display invariant premise" (R241, derived there from R165, R166, R170): from an image with
only P lit, a display run with no other step between its words (log 15) leaves only the current position lit
exactly when that is P or one step from P along the direction; otherwise both stay lit. -/
def Obligations.DisplayKeepsOneLitUnderItsPremise : Prop :=
  ∀ (s : State) (P : BitVec 4), HostMayRun s → OnlyLit s P →
    ∃ t : State, displayRun s = .next t ∧
      (OnlyLit t s.position ↔ s.position = P ∨ prevPosition s.position s.direction = P) ∧
      (¬(s.position = P ∨ prevPosition s.position s.direction = P) →
        lit t P = true ∧ lit t s.position = true)

/-- R171: with ROLLOVER set the rollover procedure steps SPEED_LEVEL by one modulo 4, reprograms the
timer and clears ROLLOVER; with ROLLOVER clear it only reads. It reads SNAP, of the two registers R171
allows (the model's choice, log 19), and no other step falls between its words (log 15). -/
def Obligations.RolloverProcedureStepsTheSpeed : Prop :=
  ∀ s : State, HostMayRun s →
    (s.rollover = true → ∃ t : State, rolloverRun s = .next t ∧
      t = { s with
        speedLevel := BitVec.ofNat 2 ((s.speedLevel.toNat + 1) % 4)
        treload := s.reload (BitVec.ofNat 2 ((s.speedLevel.toNat + 1) % 4))
        tcnt := 0
        rollover := false
        hlog := s.hlog ++ [(0xB, snapValue s)]
        ip := s.ip + 3 }) ∧
    (s.rollover = false → ∃ t : State, rolloverRun s = .next t ∧
      t = { s with hlog := s.hlog ++ [(0xB, snapValue s)], ip := s.ip + 1 })

/-- R172: an iteration is the display procedure and then the rollover procedure on one snapshot: its LED
image is the display's, its speed, timer and ROLLOVER the rollover procedure's, and it takes five words
when ROLLOVER is set and three when it is clear. No other step falls between its words (log 15). -/
def Obligations.IterationIsDisplayThenRollover : Prop :=
  ∀ s : State, HostMayRun s →
    ∃ t d r : State, iterationRun s = .next t ∧ displayRun s = .next d ∧ rolloverRun s = .next r ∧
      t = { r with led := d.led, ip := s.ip + (if s.rollover = true then 5 else 3) }
end

