-- ==== Sys2Proof/Laws/Assembler.lean ====
section
/-! SUPPORT. How the assembler splits a line and reads its operands: what a proof about a line's text
cites in place of unfolding `tokensFrom` and `digitsFrom`. -/

namespace Sys2Proof.Machine

/-- Text with no blank, comma or semicolon. -/
def PlainText (t : List Char) : Prop := ∀ c ∈ t, c ≠ ';' ∧ c ≠ ' ' ∧ c ≠ '\t' ∧ c ≠ ','

/-! ## Tokens -/

theorem tokensFrom_plain {t : List Char} (h : PlainText t) (cur rest : List Char) :
    tokensFrom cur (t ++ rest) = tokensFrom (t.reverse ++ cur) rest := by
  induction t generalizing cur with
  | nil => rfl
  | cons c t ih =>
    obtain ⟨h1, h2, h3, h4⟩ := h c (by simp)
    have ht : PlainText t := fun x hx => h x (by simp [hx])
    rw [List.cons_append, tokensFrom]
    simp [h1, h2, h3, h4, ih ht]

/-- Text up to the end of the line is one token. -/
theorem tokensFrom_plain_end {t : List Char} (h : PlainText t) (hne : t ≠ []) :
    tokensFrom [] t = [t] := by
  have := tokensFrom_plain h [] []
  rw [List.append_nil] at this
  rw [this, tokensFrom, List.append_nil, ← List.reverse_reverse t]
  cases hr : t.reverse with
  | nil => exact absurd (List.reverse_eq_nil_iff.mp hr) hne
  | cons c cs => simp [flushToken]

/-- A comment changes no token. -/
theorem tokensFrom_comment (cur line comment : List Char) :
    tokensFrom cur (line ++ ';' :: comment) = tokensFrom cur line := by
  induction line generalizing cur with
  | nil => simp [tokensFrom]
  | cons c line ih => simp only [List.cons_append, tokensFrom, ih]

/-! ## Numbers -/

theorem digitValue_plain {c : Char} {v : Nat} (h : digitValue c = some v) :
    c ≠ ';' ∧ c ≠ ' ' ∧ c ≠ '\t' ∧ c ≠ ',' := by
  refine ⟨?_, ?_, ?_, ?_⟩ <;> rintro rfl <;> simp [digitValue] at h

theorem digitsFrom_plain {base acc : Nat} {t : List Char} {n : Nat}
    (h : digitsFrom base acc t = some n) : PlainText t := by
  induction t generalizing acc with
  | nil => intro c hc; cases hc
  | cons c t ih =>
    rw [digitsFrom] at h
    split at h
    · rename_i v hv
      split at h
      · intro x hx
        rcases List.mem_cons.mp hx with rfl | hx
        · exact digitValue_plain hv
        · exact ih h x hx
      · cases h
    · cases h

theorem digits_plain {base : Nat} {t : List Char} {n : Nat} (h : digits base t = some n) :
    PlainText t ∧ t ≠ [] := by
  cases t with
  | nil => cases h
  | cons c t => exact ⟨digitsFrom_plain (acc := 0) h, by simp⟩

/-- A number's text is one token. -/
theorem parseNumber_plain {t : List Char} {n : Nat} (h : parseNumber t = some n) :
    PlainText t ∧ t ≠ [] := by
  unfold parseNumber at h
  split at h
  · refine ⟨fun c hc => ?_, by simp⟩
    rcases List.mem_cons.mp hc with rfl | hc
    · decide
    rcases List.mem_cons.mp hc with rfl | hc
    · decide
    exact (digits_plain h).1 c hc
  · refine ⟨fun c hc => ?_, by simp⟩
    rcases List.mem_cons.mp hc with rfl | hc
    · decide
    rcases List.mem_cons.mp hc with rfl | hc
    · decide
    exact (digits_plain h).1 c hc
  · exact digits_plain h

/-! ## Registers -/

/-- A register's name is one token. -/
theorem regName_plain (r : HostReg) : PlainText (regName r) ∧ regName r ≠ [] := by
  unfold PlainText
  cases r <;> simp [regName]

@[simp] theorem parseReg_regName (r : HostReg) : parseReg (regName r) = some (.name r) := by
  cases r <;> decide

/-- No register's name is a number's text. -/
theorem parseNumber_regName (r : HostReg) : parseNumber (regName r) = none := by
  cases r <;> decide

/-- A number in a register's place is the number. -/
theorem parseReg_of_parseNumber {t : List Char} {n : Nat} (h : parseNumber t = some n) :
    parseReg t = some (.number n) := by
  unfold parseReg
  split
  · rename_i r hr
    have := List.find?_some hr
    rw [← beq_iff_eq.mp this, parseNumber_regName] at h
    cases h
  · simp [h]

end Sys2Proof.Machine
end

