-- ==== Sys2Proof/Laws/Decode.lean ====
section
/-! SUPPORT. The fields of a made word, and the two bytes of a stored one. -/

namespace Sys2Proof

@[simp] theorem opField_makeWord (op : BitVec 4) (a : HostAddr) (d : Byte) :
    opField (makeWord op a d) = op := by
  apply BitVec.eq_of_getLsbD_eq
  intro i hi
  simp [opField, makeWord]
  grind

@[simp] theorem addrField_makeWord (op : BitVec 4) (a : HostAddr) (d : Byte) :
    addrField (makeWord op a d) = a := by
  apply BitVec.eq_of_getLsbD_eq
  intro i hi
  simp [addrField, makeWord]
  grind

@[simp] theorem dataField_makeWord (op : BitVec 4) (a : HostAddr) (d : Byte) :
    dataField (makeWord op a d) = d := by
  apply BitVec.eq_of_getLsbD_eq
  intro i hi
  simp [dataField, makeWord]
  grind

/-- A word is its three fields. -/
theorem makeWord_fields (w : Word) : makeWord (opField w) (addrField w) (dataField w) = w := by
  apply BitVec.eq_of_getLsbD_eq
  intro i hi
  simp [makeWord, opField, addrField, dataField]
  grind

/-- A word is its two stored bytes. -/
theorem wordOfBytes_bytes (w : Word) :
    wordOfBytes (w.extractLsb' 0 8) (w.extractLsb' 8 8) = w := by
  apply BitVec.eq_of_getLsbD_eq
  intro i hi
  simp [wordOfBytes]
  grind

@[simp] theorem readTrace_bytesOfWord_append (w : Word) (bs : List Byte) :
    readTrace (bytesOfWord w ++ bs) = (readTrace bs).map (w :: ·) := by
  simp [bytesOfWord, readTrace, wordOfBytes_bytes]

/-- Every register is found at its own address. -/
@[simp] theorem ofAddr_addr (r : HostReg) : HostReg.ofAddr r.addr = some r := by cases r <;> decide

end Sys2Proof
end

