-- ==== Sys2Proof/Laws/State.lean ====
section
/-! SUPPORT. What each shared update leaves in each field. -/

namespace Sys2Proof.Machine

/-! ## consume -/

@[simp] theorem consume_position (s : State) : (consume s).position = s.position := rfl
@[simp] theorem consume_direction (s : State) : (consume s).direction = s.direction := rfl
@[simp] theorem consume_speedLevel (s : State) : (consume s).speedLevel = s.speedLevel := rfl
@[simp] theorem consume_rollover (s : State) : (consume s).rollover = s.rollover := rfl
@[simp] theorem consume_mscnt (s : State) : (consume s).mscnt = s.mscnt := rfl
@[simp] theorem consume_msPend (s : State) : (consume s).msPend = s.msPend := rfl
@[simp] theorem consume_timPend (s : State) : (consume s).timPend = s.timPend := rfl
@[simp] theorem consume_btnlPend (s : State) : (consume s).btnlPend = s.btnlPend := rfl
@[simp] theorem consume_btnrPend (s : State) : (consume s).btnrPend = s.btnrPend := rfl
@[simp] theorem consume_msEn (s : State) : (consume s).msEn = s.msEn := rfl
@[simp] theorem consume_timIe (s : State) : (consume s).timIe = s.timIe := rfl
@[simp] theorem consume_timCen (s : State) : (consume s).timCen = s.timCen := rfl
@[simp] theorem consume_btnlIe (s : State) : (consume s).btnlIe = s.btnlIe := rfl
@[simp] theorem consume_btnrIe (s : State) : (consume s).btnrIe = s.btnrIe := rfl
@[simp] theorem consume_tcnt (s : State) : (consume s).tcnt = s.tcnt := rfl
@[simp] theorem consume_treload (s : State) : (consume s).treload = s.treload := rfl
@[simp] theorem consume_lvlL (s : State) : (consume s).lvlL = s.lvlL := rfl
@[simp] theorem consume_lvlR (s : State) : (consume s).lvlR = s.lvlR := rfl
@[simp] theorem consume_led (s : State) : (consume s).led = s.led := rfl
@[simp] theorem consume_ip (s : State) : (consume s).ip = s.ip + 1 := rfl
@[simp] theorem consume_hlog (s : State) : (consume s).hlog = s.hlog := rfl
@[simp] theorem consume_fault (s : State) : (consume s).fault = s.fault := rfl
@[simp] theorem consume_trace (s : State) : (consume s).trace = s.trace := rfl
@[simp] theorem consume_schedule (s : State) : (consume s).schedule = s.schedule := rfl
@[simp] theorem consume_params (s : State) : (consume s).params = s.params := rfl

/-! ## hostReturn -/

@[simp] theorem hostReturn_position (a : HostAddr) (v : RegVal) (s : State) : (hostReturn a v s).position = s.position := rfl
@[simp] theorem hostReturn_direction (a : HostAddr) (v : RegVal) (s : State) : (hostReturn a v s).direction = s.direction := rfl
@[simp] theorem hostReturn_speedLevel (a : HostAddr) (v : RegVal) (s : State) : (hostReturn a v s).speedLevel = s.speedLevel := rfl
@[simp] theorem hostReturn_rollover (a : HostAddr) (v : RegVal) (s : State) : (hostReturn a v s).rollover = s.rollover := rfl
@[simp] theorem hostReturn_mscnt (a : HostAddr) (v : RegVal) (s : State) : (hostReturn a v s).mscnt = s.mscnt := rfl
@[simp] theorem hostReturn_msPend (a : HostAddr) (v : RegVal) (s : State) : (hostReturn a v s).msPend = s.msPend := rfl
@[simp] theorem hostReturn_timPend (a : HostAddr) (v : RegVal) (s : State) : (hostReturn a v s).timPend = s.timPend := rfl
@[simp] theorem hostReturn_btnlPend (a : HostAddr) (v : RegVal) (s : State) : (hostReturn a v s).btnlPend = s.btnlPend := rfl
@[simp] theorem hostReturn_btnrPend (a : HostAddr) (v : RegVal) (s : State) : (hostReturn a v s).btnrPend = s.btnrPend := rfl
@[simp] theorem hostReturn_msEn (a : HostAddr) (v : RegVal) (s : State) : (hostReturn a v s).msEn = s.msEn := rfl
@[simp] theorem hostReturn_timIe (a : HostAddr) (v : RegVal) (s : State) : (hostReturn a v s).timIe = s.timIe := rfl
@[simp] theorem hostReturn_timCen (a : HostAddr) (v : RegVal) (s : State) : (hostReturn a v s).timCen = s.timCen := rfl
@[simp] theorem hostReturn_btnlIe (a : HostAddr) (v : RegVal) (s : State) : (hostReturn a v s).btnlIe = s.btnlIe := rfl
@[simp] theorem hostReturn_btnrIe (a : HostAddr) (v : RegVal) (s : State) : (hostReturn a v s).btnrIe = s.btnrIe := rfl
@[simp] theorem hostReturn_tcnt (a : HostAddr) (v : RegVal) (s : State) : (hostReturn a v s).tcnt = s.tcnt := rfl
@[simp] theorem hostReturn_treload (a : HostAddr) (v : RegVal) (s : State) : (hostReturn a v s).treload = s.treload := rfl
@[simp] theorem hostReturn_lvlL (a : HostAddr) (v : RegVal) (s : State) : (hostReturn a v s).lvlL = s.lvlL := rfl
@[simp] theorem hostReturn_lvlR (a : HostAddr) (v : RegVal) (s : State) : (hostReturn a v s).lvlR = s.lvlR := rfl
@[simp] theorem hostReturn_led (a : HostAddr) (v : RegVal) (s : State) : (hostReturn a v s).led = s.led := rfl
@[simp] theorem hostReturn_ip (a : HostAddr) (v : RegVal) (s : State) : (hostReturn a v s).ip = s.ip := rfl
@[simp] theorem hostReturn_hlog (a : HostAddr) (v : RegVal) (s : State) : (hostReturn a v s).hlog = s.hlog ++ [(a, v)] := rfl
@[simp] theorem hostReturn_fault (a : HostAddr) (v : RegVal) (s : State) : (hostReturn a v s).fault = s.fault := rfl
@[simp] theorem hostReturn_trace (a : HostAddr) (v : RegVal) (s : State) : (hostReturn a v s).trace = s.trace := rfl
@[simp] theorem hostReturn_schedule (a : HostAddr) (v : RegVal) (s : State) : (hostReturn a v s).schedule = s.schedule := rfl
@[simp] theorem hostReturn_params (a : HostAddr) (v : RegVal) (s : State) : (hostReturn a v s).params = s.params := rfl

/-! ## raiseFault -/

@[simp] theorem raiseFault_position (c : FaultCode) (w : Word) (s : State) : (raiseFault c w s).position = s.position := rfl
@[simp] theorem raiseFault_direction (c : FaultCode) (w : Word) (s : State) : (raiseFault c w s).direction = s.direction := rfl
@[simp] theorem raiseFault_speedLevel (c : FaultCode) (w : Word) (s : State) : (raiseFault c w s).speedLevel = s.speedLevel := rfl
@[simp] theorem raiseFault_rollover (c : FaultCode) (w : Word) (s : State) : (raiseFault c w s).rollover = s.rollover := rfl
@[simp] theorem raiseFault_mscnt (c : FaultCode) (w : Word) (s : State) : (raiseFault c w s).mscnt = s.mscnt := rfl
@[simp] theorem raiseFault_msPend (c : FaultCode) (w : Word) (s : State) : (raiseFault c w s).msPend = s.msPend := rfl
@[simp] theorem raiseFault_timPend (c : FaultCode) (w : Word) (s : State) : (raiseFault c w s).timPend = s.timPend := rfl
@[simp] theorem raiseFault_btnlPend (c : FaultCode) (w : Word) (s : State) : (raiseFault c w s).btnlPend = s.btnlPend := rfl
@[simp] theorem raiseFault_btnrPend (c : FaultCode) (w : Word) (s : State) : (raiseFault c w s).btnrPend = s.btnrPend := rfl
@[simp] theorem raiseFault_msEn (c : FaultCode) (w : Word) (s : State) : (raiseFault c w s).msEn = s.msEn := rfl
@[simp] theorem raiseFault_timIe (c : FaultCode) (w : Word) (s : State) : (raiseFault c w s).timIe = s.timIe := rfl
@[simp] theorem raiseFault_timCen (c : FaultCode) (w : Word) (s : State) : (raiseFault c w s).timCen = s.timCen := rfl
@[simp] theorem raiseFault_btnlIe (c : FaultCode) (w : Word) (s : State) : (raiseFault c w s).btnlIe = s.btnlIe := rfl
@[simp] theorem raiseFault_btnrIe (c : FaultCode) (w : Word) (s : State) : (raiseFault c w s).btnrIe = s.btnrIe := rfl
@[simp] theorem raiseFault_tcnt (c : FaultCode) (w : Word) (s : State) : (raiseFault c w s).tcnt = s.tcnt := rfl
@[simp] theorem raiseFault_treload (c : FaultCode) (w : Word) (s : State) : (raiseFault c w s).treload = s.treload := rfl
@[simp] theorem raiseFault_lvlL (c : FaultCode) (w : Word) (s : State) : (raiseFault c w s).lvlL = s.lvlL := rfl
@[simp] theorem raiseFault_lvlR (c : FaultCode) (w : Word) (s : State) : (raiseFault c w s).lvlR = s.lvlR := rfl
@[simp] theorem raiseFault_led (c : FaultCode) (w : Word) (s : State) : (raiseFault c w s).led = s.led := rfl
@[simp] theorem raiseFault_ip (c : FaultCode) (w : Word) (s : State) : (raiseFault c w s).ip = s.ip := rfl
@[simp] theorem raiseFault_hlog (c : FaultCode) (w : Word) (s : State) : (raiseFault c w s).hlog = s.hlog := rfl
@[simp] theorem raiseFault_fault (c : FaultCode) (w : Word) (s : State) : (raiseFault c w s).fault = some ⟨c, w⟩ := rfl
@[simp] theorem raiseFault_trace (c : FaultCode) (w : Word) (s : State) : (raiseFault c w s).trace = s.trace := rfl
@[simp] theorem raiseFault_schedule (c : FaultCode) (w : Word) (s : State) : (raiseFault c w s).schedule = s.schedule := rfl
@[simp] theorem raiseFault_params (c : FaultCode) (w : Word) (s : State) : (raiseFault c w s).params = s.params := rfl

/-! ## popTurn -/

@[simp] theorem popTurn_position (s : State) : (popTurn s).position = s.position := rfl
@[simp] theorem popTurn_direction (s : State) : (popTurn s).direction = s.direction := rfl
@[simp] theorem popTurn_speedLevel (s : State) : (popTurn s).speedLevel = s.speedLevel := rfl
@[simp] theorem popTurn_rollover (s : State) : (popTurn s).rollover = s.rollover := rfl
@[simp] theorem popTurn_mscnt (s : State) : (popTurn s).mscnt = s.mscnt := rfl
@[simp] theorem popTurn_msPend (s : State) : (popTurn s).msPend = s.msPend := rfl
@[simp] theorem popTurn_timPend (s : State) : (popTurn s).timPend = s.timPend := rfl
@[simp] theorem popTurn_btnlPend (s : State) : (popTurn s).btnlPend = s.btnlPend := rfl
@[simp] theorem popTurn_btnrPend (s : State) : (popTurn s).btnrPend = s.btnrPend := rfl
@[simp] theorem popTurn_msEn (s : State) : (popTurn s).msEn = s.msEn := rfl
@[simp] theorem popTurn_timIe (s : State) : (popTurn s).timIe = s.timIe := rfl
@[simp] theorem popTurn_timCen (s : State) : (popTurn s).timCen = s.timCen := rfl
@[simp] theorem popTurn_btnlIe (s : State) : (popTurn s).btnlIe = s.btnlIe := rfl
@[simp] theorem popTurn_btnrIe (s : State) : (popTurn s).btnrIe = s.btnrIe := rfl
@[simp] theorem popTurn_tcnt (s : State) : (popTurn s).tcnt = s.tcnt := rfl
@[simp] theorem popTurn_treload (s : State) : (popTurn s).treload = s.treload := rfl
@[simp] theorem popTurn_lvlL (s : State) : (popTurn s).lvlL = s.lvlL := rfl
@[simp] theorem popTurn_lvlR (s : State) : (popTurn s).lvlR = s.lvlR := rfl
@[simp] theorem popTurn_led (s : State) : (popTurn s).led = s.led := rfl
@[simp] theorem popTurn_ip (s : State) : (popTurn s).ip = s.ip := rfl
@[simp] theorem popTurn_hlog (s : State) : (popTurn s).hlog = s.hlog := rfl
@[simp] theorem popTurn_fault (s : State) : (popTurn s).fault = s.fault := rfl
@[simp] theorem popTurn_trace (s : State) : (popTurn s).trace = s.trace := rfl
@[simp] theorem popTurn_schedule (s : State) : (popTurn s).schedule = s.schedule.tail := rfl
@[simp] theorem popTurn_params (s : State) : (popTurn s).params = s.params := rfl

/-! ## advance -/

@[simp] theorem advance_position (s : State) : (advance s).position = nextPosition s.direction s.position := rfl
@[simp] theorem advance_direction (s : State) : (advance s).direction = s.direction := rfl
@[simp] theorem advance_speedLevel (s : State) : (advance s).speedLevel = s.speedLevel := rfl
@[simp] theorem advance_rollover (s : State) : (advance s).rollover = rolloverAfterAdvance s := rfl
@[simp] theorem advance_mscnt (s : State) : (advance s).mscnt = s.mscnt := rfl
@[simp] theorem advance_msPend (s : State) : (advance s).msPend = s.msPend := rfl
@[simp] theorem advance_timPend (s : State) : (advance s).timPend = false := rfl
@[simp] theorem advance_btnlPend (s : State) : (advance s).btnlPend = s.btnlPend := rfl
@[simp] theorem advance_btnrPend (s : State) : (advance s).btnrPend = s.btnrPend := rfl
@[simp] theorem advance_msEn (s : State) : (advance s).msEn = s.msEn := rfl
@[simp] theorem advance_timIe (s : State) : (advance s).timIe = s.timIe := rfl
@[simp] theorem advance_timCen (s : State) : (advance s).timCen = s.timCen := rfl
@[simp] theorem advance_btnlIe (s : State) : (advance s).btnlIe = s.btnlIe := rfl
@[simp] theorem advance_btnrIe (s : State) : (advance s).btnrIe = s.btnrIe := rfl
@[simp] theorem advance_tcnt (s : State) : (advance s).tcnt = s.tcnt := rfl
@[simp] theorem advance_treload (s : State) : (advance s).treload = s.treload := rfl
@[simp] theorem advance_lvlL (s : State) : (advance s).lvlL = s.lvlL := rfl
@[simp] theorem advance_lvlR (s : State) : (advance s).lvlR = s.lvlR := rfl
@[simp] theorem advance_led (s : State) : (advance s).led = s.led := rfl
@[simp] theorem advance_ip (s : State) : (advance s).ip = s.ip := rfl
@[simp] theorem advance_hlog (s : State) : (advance s).hlog = s.hlog := rfl
@[simp] theorem advance_fault (s : State) : (advance s).fault = s.fault := rfl
@[simp] theorem advance_trace (s : State) : (advance s).trace = s.trace := rfl
@[simp] theorem advance_schedule (s : State) : (advance s).schedule = s.schedule := rfl
@[simp] theorem advance_params (s : State) : (advance s).params = s.params := rfl

end Sys2Proof.Machine
end

