-- ==== Sys2Proof/Laws/Effects.lean ====
section
/-! SUPPORT. What each operation's own effect leaves in each field, and which effects leave REQ alone. -/

namespace Sys2Proof.Machine

/-! ## msTick -/

@[simp] theorem msTick_position (s : State) : (msTick s).position = s.position := rfl
@[simp] theorem msTick_direction (s : State) : (msTick s).direction = s.direction := rfl
@[simp] theorem msTick_speedLevel (s : State) : (msTick s).speedLevel = s.speedLevel := rfl
@[simp] theorem msTick_rollover (s : State) : (msTick s).rollover = s.rollover := rfl
@[simp] theorem msTick_mscnt (s : State) : (msTick s).mscnt = s.mscnt := rfl
@[simp] theorem msTick_msPend (s : State) : (msTick s).msPend = latch s.msPend s.msEn true := rfl
@[simp] theorem msTick_timPend (s : State) : (msTick s).timPend = s.timPend := rfl
@[simp] theorem msTick_btnlPend (s : State) : (msTick s).btnlPend = s.btnlPend := rfl
@[simp] theorem msTick_btnrPend (s : State) : (msTick s).btnrPend = s.btnrPend := rfl
@[simp] theorem msTick_msEn (s : State) : (msTick s).msEn = s.msEn := rfl
@[simp] theorem msTick_timIe (s : State) : (msTick s).timIe = s.timIe := rfl
@[simp] theorem msTick_timCen (s : State) : (msTick s).timCen = s.timCen := rfl
@[simp] theorem msTick_btnlIe (s : State) : (msTick s).btnlIe = s.btnlIe := rfl
@[simp] theorem msTick_btnrIe (s : State) : (msTick s).btnrIe = s.btnrIe := rfl
@[simp] theorem msTick_tcnt (s : State) : (msTick s).tcnt = s.tcnt := rfl
@[simp] theorem msTick_treload (s : State) : (msTick s).treload = s.treload := rfl
@[simp] theorem msTick_lvlL (s : State) : (msTick s).lvlL = s.lvlL := rfl
@[simp] theorem msTick_lvlR (s : State) : (msTick s).lvlR = s.lvlR := rfl
@[simp] theorem msTick_led (s : State) : (msTick s).led = s.led := rfl
@[simp] theorem msTick_ip (s : State) : (msTick s).ip = s.ip := rfl
@[simp] theorem msTick_hlog (s : State) : (msTick s).hlog = s.hlog := rfl
@[simp] theorem msTick_fault (s : State) : (msTick s).fault = s.fault := rfl
@[simp] theorem msTick_trace (s : State) : (msTick s).trace = s.trace := rfl
@[simp] theorem msTick_schedule (s : State) : (msTick s).schedule = s.schedule := rfl
@[simp] theorem msTick_params (s : State) : (msTick s).params = s.params := rfl

/-! ## sampleLeft -/

@[simp] theorem sampleLeft_position (l : Bool) (s : State) : (sampleLeft l s).position = s.position := rfl
@[simp] theorem sampleLeft_direction (l : Bool) (s : State) : (sampleLeft l s).direction = s.direction := rfl
@[simp] theorem sampleLeft_speedLevel (l : Bool) (s : State) : (sampleLeft l s).speedLevel = s.speedLevel := rfl
@[simp] theorem sampleLeft_rollover (l : Bool) (s : State) : (sampleLeft l s).rollover = s.rollover := rfl
@[simp] theorem sampleLeft_mscnt (l : Bool) (s : State) : (sampleLeft l s).mscnt = s.mscnt := rfl
@[simp] theorem sampleLeft_msPend (l : Bool) (s : State) : (sampleLeft l s).msPend = s.msPend := rfl
@[simp] theorem sampleLeft_timPend (l : Bool) (s : State) : (sampleLeft l s).timPend = s.timPend := rfl
@[simp] theorem sampleLeft_btnlPend (l : Bool) (s : State) : (sampleLeft l s).btnlPend = latch s.btnlPend s.btnlIe (fallingEdge s.lvlL l) := rfl
@[simp] theorem sampleLeft_btnrPend (l : Bool) (s : State) : (sampleLeft l s).btnrPend = s.btnrPend := rfl
@[simp] theorem sampleLeft_msEn (l : Bool) (s : State) : (sampleLeft l s).msEn = s.msEn := rfl
@[simp] theorem sampleLeft_timIe (l : Bool) (s : State) : (sampleLeft l s).timIe = s.timIe := rfl
@[simp] theorem sampleLeft_timCen (l : Bool) (s : State) : (sampleLeft l s).timCen = s.timCen := rfl
@[simp] theorem sampleLeft_btnlIe (l : Bool) (s : State) : (sampleLeft l s).btnlIe = s.btnlIe := rfl
@[simp] theorem sampleLeft_btnrIe (l : Bool) (s : State) : (sampleLeft l s).btnrIe = s.btnrIe := rfl
@[simp] theorem sampleLeft_tcnt (l : Bool) (s : State) : (sampleLeft l s).tcnt = s.tcnt := rfl
@[simp] theorem sampleLeft_treload (l : Bool) (s : State) : (sampleLeft l s).treload = s.treload := rfl
@[simp] theorem sampleLeft_lvlL (l : Bool) (s : State) : (sampleLeft l s).lvlL = l := rfl
@[simp] theorem sampleLeft_lvlR (l : Bool) (s : State) : (sampleLeft l s).lvlR = s.lvlR := rfl
@[simp] theorem sampleLeft_led (l : Bool) (s : State) : (sampleLeft l s).led = s.led := rfl
@[simp] theorem sampleLeft_ip (l : Bool) (s : State) : (sampleLeft l s).ip = s.ip := rfl
@[simp] theorem sampleLeft_hlog (l : Bool) (s : State) : (sampleLeft l s).hlog = s.hlog := rfl
@[simp] theorem sampleLeft_fault (l : Bool) (s : State) : (sampleLeft l s).fault = s.fault := rfl
@[simp] theorem sampleLeft_trace (l : Bool) (s : State) : (sampleLeft l s).trace = s.trace := rfl
@[simp] theorem sampleLeft_schedule (l : Bool) (s : State) : (sampleLeft l s).schedule = s.schedule := rfl
@[simp] theorem sampleLeft_params (l : Bool) (s : State) : (sampleLeft l s).params = s.params := rfl

/-! ## sampleRight -/

@[simp] theorem sampleRight_position (l : Bool) (s : State) : (sampleRight l s).position = s.position := rfl
@[simp] theorem sampleRight_direction (l : Bool) (s : State) : (sampleRight l s).direction = s.direction := rfl
@[simp] theorem sampleRight_speedLevel (l : Bool) (s : State) : (sampleRight l s).speedLevel = s.speedLevel := rfl
@[simp] theorem sampleRight_rollover (l : Bool) (s : State) : (sampleRight l s).rollover = s.rollover := rfl
@[simp] theorem sampleRight_mscnt (l : Bool) (s : State) : (sampleRight l s).mscnt = s.mscnt := rfl
@[simp] theorem sampleRight_msPend (l : Bool) (s : State) : (sampleRight l s).msPend = s.msPend := rfl
@[simp] theorem sampleRight_timPend (l : Bool) (s : State) : (sampleRight l s).timPend = s.timPend := rfl
@[simp] theorem sampleRight_btnlPend (l : Bool) (s : State) : (sampleRight l s).btnlPend = s.btnlPend := rfl
@[simp] theorem sampleRight_btnrPend (l : Bool) (s : State) : (sampleRight l s).btnrPend = latch s.btnrPend s.btnrIe (fallingEdge s.lvlR l) := rfl
@[simp] theorem sampleRight_msEn (l : Bool) (s : State) : (sampleRight l s).msEn = s.msEn := rfl
@[simp] theorem sampleRight_timIe (l : Bool) (s : State) : (sampleRight l s).timIe = s.timIe := rfl
@[simp] theorem sampleRight_timCen (l : Bool) (s : State) : (sampleRight l s).timCen = s.timCen := rfl
@[simp] theorem sampleRight_btnlIe (l : Bool) (s : State) : (sampleRight l s).btnlIe = s.btnlIe := rfl
@[simp] theorem sampleRight_btnrIe (l : Bool) (s : State) : (sampleRight l s).btnrIe = s.btnrIe := rfl
@[simp] theorem sampleRight_tcnt (l : Bool) (s : State) : (sampleRight l s).tcnt = s.tcnt := rfl
@[simp] theorem sampleRight_treload (l : Bool) (s : State) : (sampleRight l s).treload = s.treload := rfl
@[simp] theorem sampleRight_lvlL (l : Bool) (s : State) : (sampleRight l s).lvlL = s.lvlL := rfl
@[simp] theorem sampleRight_lvlR (l : Bool) (s : State) : (sampleRight l s).lvlR = l := rfl
@[simp] theorem sampleRight_led (l : Bool) (s : State) : (sampleRight l s).led = s.led := rfl
@[simp] theorem sampleRight_ip (l : Bool) (s : State) : (sampleRight l s).ip = s.ip := rfl
@[simp] theorem sampleRight_hlog (l : Bool) (s : State) : (sampleRight l s).hlog = s.hlog := rfl
@[simp] theorem sampleRight_fault (l : Bool) (s : State) : (sampleRight l s).fault = s.fault := rfl
@[simp] theorem sampleRight_trace (l : Bool) (s : State) : (sampleRight l s).trace = s.trace := rfl
@[simp] theorem sampleRight_schedule (l : Bool) (s : State) : (sampleRight l s).schedule = s.schedule := rfl
@[simp] theorem sampleRight_params (l : Bool) (s : State) : (sampleRight l s).params = s.params := rfl

/-! ## clearRollover -/

@[simp] theorem clearRollover_position (c : Bool) (s : State) : (clearRollover c s).position = s.position := rfl
@[simp] theorem clearRollover_direction (c : Bool) (s : State) : (clearRollover c s).direction = s.direction := rfl
@[simp] theorem clearRollover_speedLevel (c : Bool) (s : State) : (clearRollover c s).speedLevel = s.speedLevel := rfl
@[simp] theorem clearRollover_rollover (c : Bool) (s : State) : (clearRollover c s).rollover = rolloverAfterClear s c := rfl
@[simp] theorem clearRollover_mscnt (c : Bool) (s : State) : (clearRollover c s).mscnt = s.mscnt := rfl
@[simp] theorem clearRollover_msPend (c : Bool) (s : State) : (clearRollover c s).msPend = s.msPend := rfl
@[simp] theorem clearRollover_timPend (c : Bool) (s : State) : (clearRollover c s).timPend = s.timPend := rfl
@[simp] theorem clearRollover_btnlPend (c : Bool) (s : State) : (clearRollover c s).btnlPend = s.btnlPend := rfl
@[simp] theorem clearRollover_btnrPend (c : Bool) (s : State) : (clearRollover c s).btnrPend = s.btnrPend := rfl
@[simp] theorem clearRollover_msEn (c : Bool) (s : State) : (clearRollover c s).msEn = s.msEn := rfl
@[simp] theorem clearRollover_timIe (c : Bool) (s : State) : (clearRollover c s).timIe = s.timIe := rfl
@[simp] theorem clearRollover_timCen (c : Bool) (s : State) : (clearRollover c s).timCen = s.timCen := rfl
@[simp] theorem clearRollover_btnlIe (c : Bool) (s : State) : (clearRollover c s).btnlIe = s.btnlIe := rfl
@[simp] theorem clearRollover_btnrIe (c : Bool) (s : State) : (clearRollover c s).btnrIe = s.btnrIe := rfl
@[simp] theorem clearRollover_tcnt (c : Bool) (s : State) : (clearRollover c s).tcnt = s.tcnt := rfl
@[simp] theorem clearRollover_treload (c : Bool) (s : State) : (clearRollover c s).treload = s.treload := rfl
@[simp] theorem clearRollover_lvlL (c : Bool) (s : State) : (clearRollover c s).lvlL = s.lvlL := rfl
@[simp] theorem clearRollover_lvlR (c : Bool) (s : State) : (clearRollover c s).lvlR = s.lvlR := rfl
@[simp] theorem clearRollover_led (c : Bool) (s : State) : (clearRollover c s).led = s.led := rfl
@[simp] theorem clearRollover_ip (c : Bool) (s : State) : (clearRollover c s).ip = s.ip := rfl
@[simp] theorem clearRollover_hlog (c : Bool) (s : State) : (clearRollover c s).hlog = s.hlog := rfl
@[simp] theorem clearRollover_fault (c : Bool) (s : State) : (clearRollover c s).fault = s.fault := rfl
@[simp] theorem clearRollover_trace (c : Bool) (s : State) : (clearRollover c s).trace = s.trace := rfl
@[simp] theorem clearRollover_schedule (c : Bool) (s : State) : (clearRollover c s).schedule = s.schedule := rfl
@[simp] theorem clearRollover_params (c : Bool) (s : State) : (clearRollover c s).params = s.params := rfl

/-! ## setSpeed -/

@[simp] theorem setSpeed_position (l : BitVec 2) (s : State) : (setSpeed l s).position = s.position := rfl
@[simp] theorem setSpeed_direction (l : BitVec 2) (s : State) : (setSpeed l s).direction = s.direction := rfl
@[simp] theorem setSpeed_speedLevel (l : BitVec 2) (s : State) : (setSpeed l s).speedLevel = l := rfl
@[simp] theorem setSpeed_rollover (l : BitVec 2) (s : State) : (setSpeed l s).rollover = s.rollover := rfl
@[simp] theorem setSpeed_mscnt (l : BitVec 2) (s : State) : (setSpeed l s).mscnt = s.mscnt := rfl
@[simp] theorem setSpeed_msPend (l : BitVec 2) (s : State) : (setSpeed l s).msPend = s.msPend := rfl
@[simp] theorem setSpeed_timPend (l : BitVec 2) (s : State) : (setSpeed l s).timPend = s.timPend := rfl
@[simp] theorem setSpeed_btnlPend (l : BitVec 2) (s : State) : (setSpeed l s).btnlPend = s.btnlPend := rfl
@[simp] theorem setSpeed_btnrPend (l : BitVec 2) (s : State) : (setSpeed l s).btnrPend = s.btnrPend := rfl
@[simp] theorem setSpeed_msEn (l : BitVec 2) (s : State) : (setSpeed l s).msEn = s.msEn := rfl
@[simp] theorem setSpeed_timIe (l : BitVec 2) (s : State) : (setSpeed l s).timIe = s.timIe := rfl
@[simp] theorem setSpeed_timCen (l : BitVec 2) (s : State) : (setSpeed l s).timCen = s.timCen := rfl
@[simp] theorem setSpeed_btnlIe (l : BitVec 2) (s : State) : (setSpeed l s).btnlIe = s.btnlIe := rfl
@[simp] theorem setSpeed_btnrIe (l : BitVec 2) (s : State) : (setSpeed l s).btnrIe = s.btnrIe := rfl
@[simp] theorem setSpeed_tcnt (l : BitVec 2) (s : State) : (setSpeed l s).tcnt = 0 := rfl
@[simp] theorem setSpeed_treload (l : BitVec 2) (s : State) : (setSpeed l s).treload = s.reload l := rfl
@[simp] theorem setSpeed_lvlL (l : BitVec 2) (s : State) : (setSpeed l s).lvlL = s.lvlL := rfl
@[simp] theorem setSpeed_lvlR (l : BitVec 2) (s : State) : (setSpeed l s).lvlR = s.lvlR := rfl
@[simp] theorem setSpeed_led (l : BitVec 2) (s : State) : (setSpeed l s).led = s.led := rfl
@[simp] theorem setSpeed_ip (l : BitVec 2) (s : State) : (setSpeed l s).ip = s.ip := rfl
@[simp] theorem setSpeed_hlog (l : BitVec 2) (s : State) : (setSpeed l s).hlog = s.hlog := rfl
@[simp] theorem setSpeed_fault (l : BitVec 2) (s : State) : (setSpeed l s).fault = s.fault := rfl
@[simp] theorem setSpeed_trace (l : BitVec 2) (s : State) : (setSpeed l s).trace = s.trace := rfl
@[simp] theorem setSpeed_schedule (l : BitVec 2) (s : State) : (setSpeed l s).schedule = s.schedule := rfl
@[simp] theorem setSpeed_params (l : BitVec 2) (s : State) : (setSpeed l s).params = s.params := rfl

/-! ## setEnables -/

@[simp] theorem setEnables_position (d : Byte) (s : State) : (setEnables d s).position = s.position := rfl
@[simp] theorem setEnables_direction (d : Byte) (s : State) : (setEnables d s).direction = s.direction := rfl
@[simp] theorem setEnables_speedLevel (d : Byte) (s : State) : (setEnables d s).speedLevel = s.speedLevel := rfl
@[simp] theorem setEnables_rollover (d : Byte) (s : State) : (setEnables d s).rollover = s.rollover := rfl
@[simp] theorem setEnables_mscnt (d : Byte) (s : State) : (setEnables d s).mscnt = s.mscnt := rfl
@[simp] theorem setEnables_msPend (d : Byte) (s : State) : (setEnables d s).msPend = s.msPend := rfl
@[simp] theorem setEnables_timPend (d : Byte) (s : State) : (setEnables d s).timPend = s.timPend := rfl
@[simp] theorem setEnables_btnlPend (d : Byte) (s : State) : (setEnables d s).btnlPend = s.btnlPend := rfl
@[simp] theorem setEnables_btnrPend (d : Byte) (s : State) : (setEnables d s).btnrPend = s.btnrPend := rfl
@[simp] theorem setEnables_msEn (d : Byte) (s : State) : (setEnables d s).msEn = d.getLsbD 0 := rfl
@[simp] theorem setEnables_timIe (d : Byte) (s : State) : (setEnables d s).timIe = d.getLsbD 1 := rfl
@[simp] theorem setEnables_timCen (d : Byte) (s : State) : (setEnables d s).timCen = d.getLsbD 2 := rfl
@[simp] theorem setEnables_btnlIe (d : Byte) (s : State) : (setEnables d s).btnlIe = d.getLsbD 3 := rfl
@[simp] theorem setEnables_btnrIe (d : Byte) (s : State) : (setEnables d s).btnrIe = d.getLsbD 4 := rfl
@[simp] theorem setEnables_tcnt (d : Byte) (s : State) : (setEnables d s).tcnt = s.tcnt := rfl
@[simp] theorem setEnables_treload (d : Byte) (s : State) : (setEnables d s).treload = s.treload := rfl
@[simp] theorem setEnables_lvlL (d : Byte) (s : State) : (setEnables d s).lvlL = s.lvlL := rfl
@[simp] theorem setEnables_lvlR (d : Byte) (s : State) : (setEnables d s).lvlR = s.lvlR := rfl
@[simp] theorem setEnables_led (d : Byte) (s : State) : (setEnables d s).led = s.led := rfl
@[simp] theorem setEnables_ip (d : Byte) (s : State) : (setEnables d s).ip = s.ip := rfl
@[simp] theorem setEnables_hlog (d : Byte) (s : State) : (setEnables d s).hlog = s.hlog := rfl
@[simp] theorem setEnables_fault (d : Byte) (s : State) : (setEnables d s).fault = s.fault := rfl
@[simp] theorem setEnables_trace (d : Byte) (s : State) : (setEnables d s).trace = s.trace := rfl
@[simp] theorem setEnables_schedule (d : Byte) (s : State) : (setEnables d s).schedule = s.schedule := rfl
@[simp] theorem setEnables_params (d : Byte) (s : State) : (setEnables d s).params = s.params := rfl

/-! ## setLed -/

@[simp] theorem setLed_position (p : BitVec 4) (s : State) : (setLed p s).position = s.position := rfl
@[simp] theorem setLed_direction (p : BitVec 4) (s : State) : (setLed p s).direction = s.direction := rfl
@[simp] theorem setLed_speedLevel (p : BitVec 4) (s : State) : (setLed p s).speedLevel = s.speedLevel := rfl
@[simp] theorem setLed_rollover (p : BitVec 4) (s : State) : (setLed p s).rollover = s.rollover := rfl
@[simp] theorem setLed_mscnt (p : BitVec 4) (s : State) : (setLed p s).mscnt = s.mscnt := rfl
@[simp] theorem setLed_msPend (p : BitVec 4) (s : State) : (setLed p s).msPend = s.msPend := rfl
@[simp] theorem setLed_timPend (p : BitVec 4) (s : State) : (setLed p s).timPend = s.timPend := rfl
@[simp] theorem setLed_btnlPend (p : BitVec 4) (s : State) : (setLed p s).btnlPend = s.btnlPend := rfl
@[simp] theorem setLed_btnrPend (p : BitVec 4) (s : State) : (setLed p s).btnrPend = s.btnrPend := rfl
@[simp] theorem setLed_msEn (p : BitVec 4) (s : State) : (setLed p s).msEn = s.msEn := rfl
@[simp] theorem setLed_timIe (p : BitVec 4) (s : State) : (setLed p s).timIe = s.timIe := rfl
@[simp] theorem setLed_timCen (p : BitVec 4) (s : State) : (setLed p s).timCen = s.timCen := rfl
@[simp] theorem setLed_btnlIe (p : BitVec 4) (s : State) : (setLed p s).btnlIe = s.btnlIe := rfl
@[simp] theorem setLed_btnrIe (p : BitVec 4) (s : State) : (setLed p s).btnrIe = s.btnrIe := rfl
@[simp] theorem setLed_tcnt (p : BitVec 4) (s : State) : (setLed p s).tcnt = s.tcnt := rfl
@[simp] theorem setLed_treload (p : BitVec 4) (s : State) : (setLed p s).treload = s.treload := rfl
@[simp] theorem setLed_lvlL (p : BitVec 4) (s : State) : (setLed p s).lvlL = s.lvlL := rfl
@[simp] theorem setLed_lvlR (p : BitVec 4) (s : State) : (setLed p s).lvlR = s.lvlR := rfl
@[simp] theorem setLed_led (p : BitVec 4) (s : State) : (setLed p s).led = s.led ||| ledBit p := rfl
@[simp] theorem setLed_ip (p : BitVec 4) (s : State) : (setLed p s).ip = s.ip := rfl
@[simp] theorem setLed_hlog (p : BitVec 4) (s : State) : (setLed p s).hlog = s.hlog := rfl
@[simp] theorem setLed_fault (p : BitVec 4) (s : State) : (setLed p s).fault = s.fault := rfl
@[simp] theorem setLed_trace (p : BitVec 4) (s : State) : (setLed p s).trace = s.trace := rfl
@[simp] theorem setLed_schedule (p : BitVec 4) (s : State) : (setLed p s).schedule = s.schedule := rfl
@[simp] theorem setLed_params (p : BitVec 4) (s : State) : (setLed p s).params = s.params := rfl

/-! ## clearLed -/

@[simp] theorem clearLed_position (p : BitVec 4) (s : State) : (clearLed p s).position = s.position := rfl
@[simp] theorem clearLed_direction (p : BitVec 4) (s : State) : (clearLed p s).direction = s.direction := rfl
@[simp] theorem clearLed_speedLevel (p : BitVec 4) (s : State) : (clearLed p s).speedLevel = s.speedLevel := rfl
@[simp] theorem clearLed_rollover (p : BitVec 4) (s : State) : (clearLed p s).rollover = s.rollover := rfl
@[simp] theorem clearLed_mscnt (p : BitVec 4) (s : State) : (clearLed p s).mscnt = s.mscnt := rfl
@[simp] theorem clearLed_msPend (p : BitVec 4) (s : State) : (clearLed p s).msPend = s.msPend := rfl
@[simp] theorem clearLed_timPend (p : BitVec 4) (s : State) : (clearLed p s).timPend = s.timPend := rfl
@[simp] theorem clearLed_btnlPend (p : BitVec 4) (s : State) : (clearLed p s).btnlPend = s.btnlPend := rfl
@[simp] theorem clearLed_btnrPend (p : BitVec 4) (s : State) : (clearLed p s).btnrPend = s.btnrPend := rfl
@[simp] theorem clearLed_msEn (p : BitVec 4) (s : State) : (clearLed p s).msEn = s.msEn := rfl
@[simp] theorem clearLed_timIe (p : BitVec 4) (s : State) : (clearLed p s).timIe = s.timIe := rfl
@[simp] theorem clearLed_timCen (p : BitVec 4) (s : State) : (clearLed p s).timCen = s.timCen := rfl
@[simp] theorem clearLed_btnlIe (p : BitVec 4) (s : State) : (clearLed p s).btnlIe = s.btnlIe := rfl
@[simp] theorem clearLed_btnrIe (p : BitVec 4) (s : State) : (clearLed p s).btnrIe = s.btnrIe := rfl
@[simp] theorem clearLed_tcnt (p : BitVec 4) (s : State) : (clearLed p s).tcnt = s.tcnt := rfl
@[simp] theorem clearLed_treload (p : BitVec 4) (s : State) : (clearLed p s).treload = s.treload := rfl
@[simp] theorem clearLed_lvlL (p : BitVec 4) (s : State) : (clearLed p s).lvlL = s.lvlL := rfl
@[simp] theorem clearLed_lvlR (p : BitVec 4) (s : State) : (clearLed p s).lvlR = s.lvlR := rfl
@[simp] theorem clearLed_led (p : BitVec 4) (s : State) : (clearLed p s).led = s.led &&& ~~~ledBit p := rfl
@[simp] theorem clearLed_ip (p : BitVec 4) (s : State) : (clearLed p s).ip = s.ip := rfl
@[simp] theorem clearLed_hlog (p : BitVec 4) (s : State) : (clearLed p s).hlog = s.hlog := rfl
@[simp] theorem clearLed_fault (p : BitVec 4) (s : State) : (clearLed p s).fault = s.fault := rfl
@[simp] theorem clearLed_trace (p : BitVec 4) (s : State) : (clearLed p s).trace = s.trace := rfl
@[simp] theorem clearLed_schedule (p : BitVec 4) (s : State) : (clearLed p s).schedule = s.schedule := rfl
@[simp] theorem clearLed_params (p : BitVec 4) (s : State) : (clearLed p s).params = s.params := rfl

/-! ## msHandler -/

@[simp] theorem msHandler_position (s : State) : (msHandler s).position = s.position := rfl
@[simp] theorem msHandler_direction (s : State) : (msHandler s).direction = s.direction := rfl
@[simp] theorem msHandler_speedLevel (s : State) : (msHandler s).speedLevel = s.speedLevel := rfl
@[simp] theorem msHandler_rollover (s : State) : (msHandler s).rollover = s.rollover := rfl
@[simp] theorem msHandler_mscnt (s : State) : (msHandler s).mscnt = s.mscnt + 1 := rfl
@[simp] theorem msHandler_msPend (s : State) : (msHandler s).msPend = false := rfl
@[simp] theorem msHandler_timPend (s : State) : (msHandler s).timPend = s.timPend := rfl
@[simp] theorem msHandler_btnlPend (s : State) : (msHandler s).btnlPend = s.btnlPend := rfl
@[simp] theorem msHandler_btnrPend (s : State) : (msHandler s).btnrPend = s.btnrPend := rfl
@[simp] theorem msHandler_msEn (s : State) : (msHandler s).msEn = s.msEn := rfl
@[simp] theorem msHandler_timIe (s : State) : (msHandler s).timIe = s.timIe := rfl
@[simp] theorem msHandler_timCen (s : State) : (msHandler s).timCen = s.timCen := rfl
@[simp] theorem msHandler_btnlIe (s : State) : (msHandler s).btnlIe = s.btnlIe := rfl
@[simp] theorem msHandler_btnrIe (s : State) : (msHandler s).btnrIe = s.btnrIe := rfl
@[simp] theorem msHandler_tcnt (s : State) : (msHandler s).tcnt = s.tcnt := rfl
@[simp] theorem msHandler_treload (s : State) : (msHandler s).treload = s.treload := rfl
@[simp] theorem msHandler_lvlL (s : State) : (msHandler s).lvlL = s.lvlL := rfl
@[simp] theorem msHandler_lvlR (s : State) : (msHandler s).lvlR = s.lvlR := rfl
@[simp] theorem msHandler_led (s : State) : (msHandler s).led = s.led := rfl
@[simp] theorem msHandler_ip (s : State) : (msHandler s).ip = s.ip := rfl
@[simp] theorem msHandler_hlog (s : State) : (msHandler s).hlog = s.hlog := rfl
@[simp] theorem msHandler_fault (s : State) : (msHandler s).fault = s.fault := rfl
@[simp] theorem msHandler_trace (s : State) : (msHandler s).trace = s.trace := rfl
@[simp] theorem msHandler_schedule (s : State) : (msHandler s).schedule = s.schedule := rfl
@[simp] theorem msHandler_params (s : State) : (msHandler s).params = s.params := rfl

/-! ## Arbitration reads only the pending flags and the enables -/

@[simp] theorem arbitrate_consume (s : State) : arbitrate (consume s) = arbitrate s := rfl
@[simp] theorem arbitrate_hostReturn (a : HostAddr) (v : RegVal) (s : State) : arbitrate (hostReturn a v s) = arbitrate s := rfl
@[simp] theorem arbitrate_raiseFault (c : FaultCode) (w : Word) (s : State) : arbitrate (raiseFault c w s) = arbitrate s := rfl
@[simp] theorem arbitrate_popTurn (s : State) : arbitrate (popTurn s) = arbitrate s := rfl
@[simp] theorem arbitrate_clearRollover (c : Bool) (s : State) : arbitrate (clearRollover c s) = arbitrate s := rfl
@[simp] theorem arbitrate_setSpeed (l : BitVec 2) (s : State) : arbitrate (setSpeed l s) = arbitrate s := rfl
@[simp] theorem arbitrate_setLed (p : BitVec 4) (s : State) : arbitrate (setLed p s) = arbitrate s := rfl
@[simp] theorem arbitrate_clearLed (p : BitVec 4) (s : State) : arbitrate (clearLed p s) = arbitrate s := rfl

/-! ## RELOAD is a parameter -/

theorem reload_congr {s t : State} (h : t.params = s.params) (l : BitVec 2) :
    t.reload l = s.reload l := by
  simp only [State.reload, h]

end Sys2Proof.Machine
end

