-- ==== Sys2Proof/Laws/Ops.lean ====
section
/-! SUPPORT. One lemma per shared operation that says everything it can do, and the small facts about
arbitration and turns they are used with. -/

namespace Sys2Proof.Machine

/-! ## When an operation is enabled -/

theorem whenRunning_of_none {s : State} {k : Result} (h : s.fault = none) : whenRunning s k = k := by
  simp only [whenRunning, h]

theorem whenRunning_of_some {s : State} {k : Result} {r : FaultRecord} (h : s.fault = some r) :
    whenRunning s k = .fault (.faulted r) := by
  simp only [whenRunning, h]

theorem whenRunning_next {s t : State} {k : Result} (h : whenRunning s k = .next t) :
    s.fault = none ∧ k = .next t := by
  unfold whenRunning at h
  split at h
  · cases h
  · exact ⟨‹_›, h⟩

theorem whenHostMayRun_next {s t : State} {k : Result} (h : whenHostMayRun s k = .next t) :
    s.fault = none ∧ arbitrate s = none ∧ k = .next t := by
  obtain ⟨hf, h⟩ := whenRunning_next h
  split at h
  · cases h
  · rename_i ha
    exact ⟨hf, by simpa using ha, h⟩

theorem whenHostMayRun_of_free {s : State} {k : Result} (hf : s.fault = none)
    (ha : arbitrate s = none) : whenHostMayRun s k = k := by
  simp [whenHostMayRun, whenRunning_of_none hf, ha]

theorem whenSelected_next {v : IrqVector} {s t : State} {k : Result}
    (h : whenSelected v s k = .next t) : s.fault = none ∧ arbitrate s = some v ∧ k = .next t := by
  obtain ⟨hf, h⟩ := whenRunning_next h
  split at h
  · exact ⟨hf, ‹_›, h⟩
  · cases h

theorem whenSelected_of_chosen {v : IrqVector} {s : State} {k : Result} (hf : s.fault = none)
    (ha : arbitrate s = some v) : whenSelected v s k = k := by
  simp [whenSelected, whenRunning_of_none hf, ha]

/-! ## The shapes of operations -/

theorem eventStep_next {f : State → State} {s t : State} (h : eventStep f s = .next t) :
    s.fault = none ∧ t = consume (f s) := by
  obtain ⟨hf, h⟩ := whenRunning_next h
  exact ⟨hf, by cases h; rfl⟩

theorem pinStep_next {w : Word} {d : Byte} {f : State → State} {s t : State}
    (h : pinStep w d f s = .next t) :
    s.fault = none ∧ ((pinDataOk d = true ∧ t = consume (f s)) ∨
      (pinDataOk d = false ∧ t = raiseFault .reservedField w s)) := by
  obtain ⟨hf, h⟩ := whenRunning_next h
  refine ⟨hf, ?_⟩
  split at h
  · exact .inl ⟨‹_›, by cases h; rfl⟩
  · rename_i hd
    exact .inr ⟨by simpa using hd, by cases h; rfl⟩

theorem readStep_next {r : HostReg} {v : RegVal} {s t : State} (h : readStep r v s = .next t) :
    s.fault = none ∧ arbitrate s = none ∧ t = consume (hostReturn r.addr v s) := by
  obtain ⟨hf, ha, h⟩ := whenHostMayRun_next h
  exact ⟨hf, ha, by cases h; rfl⟩

theorem writeStep_next {r : HostReg} {d : Byte} {f : State → State} {s t : State}
    (h : writeStep r d f s = .next t) :
    s.fault = none ∧ arbitrate s = none ∧ ((writeDataOk r d = true ∧ t = consume (f s)) ∨
      (writeDataOk r d = false ∧ t = raiseFault .reservedField (writeWord r d) s)) := by
  obtain ⟨hf, ha, h⟩ := whenHostMayRun_next h
  refine ⟨hf, ha, ?_⟩
  split at h
  · exact .inl ⟨‹_›, by cases h; rfl⟩
  · rename_i hd
    exact .inr ⟨by simpa using hd, by cases h; rfl⟩

theorem serviceStep_next {v : IrqVector} {f : State → State} {s t : State}
    (h : serviceStep v f s = .next t) : s.fault = none ∧ arbitrate s = some v ∧ t = f s := by
  obtain ⟨hf, ha, h⟩ := whenSelected_next h
  exact ⟨hf, ha, by cases h; rfl⟩

/-! ## Arbitration -/

theorem arbitrate_eq_none_iff (s : State) : arbitrate s = none ↔ ∀ v, request s v = false := by
  constructor
  · intro h v
    unfold arbitrate at h
    cases v <;> grind
  · intro h
    simp [arbitrate, h]

theorem request_of_arbitrate {s : State} {v : IrqVector} (h : arbitrate s = some v) :
    request s v = true := by
  unfold arbitrate at h
  grind

/-- Arbitration reads the pending flags and the enables and nothing else. -/
theorem arbitrate_congr {s t : State} (h : ∀ v, request s v = request t v) :
    arbitrate s = arbitrate t := by
  simp [arbitrate, h]

/-! ## Turns -/

theorem takeTurn_eq (s : State) : takeTurn s = { s with schedule := (takeTurn s).schedule } := by
  unfold takeTurn
  split <;> rfl

theorem takeTurn_of_idle_arbiter {s : State} (h : arbitrate s = none) : takeTurn s = s := by
  simp [takeTurn, choicePoint, h]

/-! ## One step -/

theorem step_of_service {s : State} {v : IrqVector} (hf : s.fault = none)
    (ha : nextAction s = .service v) : step s = exec (serviceInstr v) (takeTurn s) := by
  simp only [step, hf, ha]

theorem step_of_word {s : State} {w : Word} {i : Instr} (hf : s.fault = none)
    (ha : nextAction s = .word w) (hd : decodeWord w = .instr i) :
    step s = exec i (takeTurn s) := by
  simp only [step, hf, ha, hd]

theorem step_of_badWord {s : State} {w : Word} {c : FaultCode} (hf : s.fault = none)
    (ha : nextAction s = .word w) (hd : decodeWord w = .reject c) :
    step s = .next (raiseFault c w (takeTurn s)) := by
  simp only [step, hf, ha, hd, takeFault]

theorem step_of_idle {s : State} (hf : s.fault = none) (ha : nextAction s = .idle) :
    step s = .fault .runEnded := by
  simp only [step, hf, ha]

/-- Everything a step that answers a next state can be. -/
theorem step_next {s t : State} (h : step s = .next t) :
    s.fault = none ∧
    ((∃ v, nextAction s = .service v ∧ exec (serviceInstr v) (takeTurn s) = .next t) ∨
     (∃ w i, nextAction s = .word w ∧ decodeWord w = .instr i ∧ exec i (takeTurn s) = .next t) ∨
     (∃ w c, nextAction s = .word w ∧ decodeWord w = .reject c ∧
       t = raiseFault c w (takeTurn s))) := by
  unfold step at h
  split at h
  · cases h
  refine ⟨‹_›, ?_⟩
  split at h
  · cases h
  · exact .inl ⟨_, ‹_›, h⟩
  · split at h
    · exact .inr (.inl ⟨_, _, ‹_›, ‹_›, h⟩)
    · exact .inr (.inr ⟨_, _, ‹_›, ‹_›, by cases h; rfl⟩)

/-- The chosen service step is the arbiter's. -/
theorem arbitrate_of_nextAction_service {s : State} {v : IrqVector}
    (h : nextAction s = .service v) : arbitrate s = some v := by
  unfold nextAction at h
  grind

/-- The chosen word is the one at IP, and it is not held. -/
theorem fetch_of_nextAction_word {s : State} {w : Word} (h : nextAction s = .word w) :
    fetch s = some w ∧ (isHostWord w = true → arbitrate s = none) := by
  unfold nextAction at h
  grind

/-- Different positions have different lines (R6). -/
theorem lineOf_injective {s : State} {p q : BitVec 4} (h : lineOf s p = lineOf s q) : p = q := by
  have hd := s.params.ledTable.distinct
  have hl : s.params.ledTable.lines.toList.length = 16 := by simp
  have hn := (List.Nodup.getElem_inj_iff hd (i := p.toNat) (j := q.toNat)
    (hi := by rw [hl]; omega) (hj := by rw [hl]; omega)).mp
    (by simpa [lineOf, Vector.get, BitVec.toFin] using h)
  exact BitVec.eq_of_toNat_eq hn

end Sys2Proof.Machine
end

