-- ==== Sys2Proof/Laws/PerInstr.lean ====
section
/-! SUPPORT. Statements for all operations, one lemma per constructor. -/

namespace Sys2Proof.Laws.TableRow

/-- Whether an operation's code belongs to its row of R76; a service step has a vector number and no row
(R75). -/
def inOwnRow (i : Instr) : Bool :=
  match i.mapRow, encode i with
  | some r, .word w => opcodeMap.contains r && r.holds w
  | none, .vector _ => true
  | _, _ => false

/-- The code of a well-formed operation belongs to the operation's row. -/
abbrev Statement (i : Instr) : Prop := WellFormed i = true → inOwnRow i = true

theorem mstick : Statement .mstick := by decide
theorem tclk : Statement .tclk := by decide
theorem pinl (d : Byte) : Statement (.pinl d) := by revert d; decide
theorem pinr (d : Byte) : Statement (.pinr d) := by revert d; decide
theorem rdPos : Statement .rdPos := by decide
theorem rdDir : Statement .rdDir := by decide
theorem rdStatus : Statement .rdStatus := by decide
theorem rdSpeed : Statement .rdSpeed := by decide
theorem rdCtrl : Statement .rdCtrl := by decide
theorem rdMscnt : Statement .rdMscnt := by decide
theorem rdTcnt : Statement .rdTcnt := by decide
theorem rdTreload : Statement .rdTreload := by decide
theorem rdLed : Statement .rdLed := by decide
theorem rdSnap : Statement .rdSnap := by decide
theorem rdPins : Statement .rdPins := by decide
theorem wrStatus (d : Byte) : Statement (.wrStatus d) := by revert d; decide
theorem wrSpeed (d : Byte) : Statement (.wrSpeed d) := by revert d; decide
theorem wrCtrl (d : Byte) : Statement (.wrCtrl d) := by revert d; decide
theorem wrLedset (d : Byte) : Statement (.wrLedset d) := by revert d; decide
theorem wrLedclr (d : Byte) : Statement (.wrLedclr d) := by revert d; decide
theorem reset : Statement .reset := by decide
theorem svcMs : Statement .svcMs := by decide
theorem svcTim : Statement .svcTim := by decide
theorem svcBtnl : Statement .svcBtnl := by decide
theorem svcBtnr : Statement .svcBtnr := by decide

end Sys2Proof.Laws.TableRow
end

