-- ==== Sys2Proof/Tests/Slice0.lean ====
section
/-! SUPPORT. Tests with expected values from the spec's tables (95_test_vectors.md, and the encodings of
30_encoding.md written out), and for each statement a witness that meets its hypotheses. -/

namespace Sys2Proof.Tests

open Sys2Proof.Machine Sys2Proof.Safety

/-! ## Small states -/

/-- The test instantiation RELOAD = (7, 3, 1, 0), F_TCLK = 16 (95_test_vectors.md), with 16 distinct lines. -/
def testParams : Params where
  reloadTable := #v[7, 3, 1, 0]
  ledTable :=
    ⟨#v[100, 101, 102, 103, 104, 105, 106, 107, 108, 109, 110, 111, 112, 113, 114, 115], by decide⟩
  fTclk := 16
  debounceDelay := 0
  hostBase := 0

/-- The reset table under the test instantiation. -/
def base : State := { State.reset with params := testParams, treload := 7 }

/-- `base` with every source enabled. -/
def live : State :=
  { base with msEn := true, timIe := true, timCen := true, btnlIe := true, btnrIe := true }

/-- `live` with all four flags latched. -/
def busy : State :=
  { live with msPend := true, timPend := true, btnlPend := true, btnrPend := true }

def after (i : Instr) (s : State) : Option State :=
  match exec i s with
  | .next t => some t
  | _ => none

def afterStep (s : State) : Option State :=
  match step s with
  | .next t => some t
  | _ => none

/-- The pair a host read appends. -/
def readPair (i : Instr) (s : State) : Option (HostAddr × RegVal) :=
  (after i s).bind fun t => t.hlog.getLast?

/-! ## WellFormed refuses what breaks R72 -/

theorem test_wf_refuses_pinl_2 : WellFormed (.pinl 2) = false := by decide
theorem test_wf_refuses_pinr_3 : WellFormed (.pinr 3) = false := by decide
theorem test_wf_refuses_wrStatus_2 : WellFormed (.wrStatus 2) = false := by decide
theorem test_wf_refuses_wrSpeed_4 : WellFormed (.wrSpeed 4) = false := by decide
theorem test_wf_refuses_wrCtrl_32 : WellFormed (.wrCtrl 0x20) = false := by decide
theorem test_wf_refuses_wrLedset_16 : WellFormed (.wrLedset 0x10) = false := by decide
theorem test_wf_refuses_wrLedclr_16 : WellFormed (.wrLedclr 0x10) = false := by decide

/-! ## Words written out from R70, R76 and R79 -/

theorem test_decode_mstick : decodeWord 0b0001000000000000 = .instr .mstick := by decide
theorem test_decode_tclk : decodeWord 0b0010000000000000 = .instr .tclk := by decide
theorem test_decode_pinl : decodeWord 0b0011000000000001 = .instr (.pinl 1) := by decide
theorem test_decode_pinr : decodeWord 0b0100000000000001 = .instr (.pinr 1) := by decide
theorem test_decode_rdPos : decodeWord 0b0101000000000000 = .instr .rdPos := by decide
theorem test_decode_rdDir : decodeWord 0b0101000100000000 = .instr .rdDir := by decide
theorem test_decode_rdStatus : decodeWord 0b0101001000000000 = .instr .rdStatus := by decide
theorem test_decode_rdSpeed : decodeWord 0b0101001100000000 = .instr .rdSpeed := by decide
theorem test_decode_rdCtrl : decodeWord 0b0101010000000000 = .instr .rdCtrl := by decide
theorem test_decode_rdMscnt : decodeWord 0b0101010100000000 = .instr .rdMscnt := by decide
theorem test_decode_rdTcnt : decodeWord 0b0101011000000000 = .instr .rdTcnt := by decide
theorem test_decode_rdTreload : decodeWord 0b0101011100000000 = .instr .rdTreload := by decide
theorem test_decode_rdLed : decodeWord 0b0101100000000000 = .instr .rdLed := by decide
theorem test_decode_rdSnap : decodeWord 0b0101101100000000 = .instr .rdSnap := by decide
theorem test_decode_rdPins : decodeWord 0b0101110000000000 = .instr .rdPins := by decide
theorem test_decode_wrStatus : decodeWord 0b0110001000000001 = .instr (.wrStatus 1) := by decide
theorem test_decode_wrSpeed : decodeWord 0b0110001100000011 = .instr (.wrSpeed 3) := by decide
theorem test_decode_wrCtrl : decodeWord 0b0110010000011000 = .instr (.wrCtrl 0x18) := by decide
theorem test_decode_wrLedset : decodeWord 0b0110100100001111 = .instr (.wrLedset 15) := by decide
theorem test_decode_wrLedclr : decodeWord 0b0110101000001010 = .instr (.wrLedclr 10) := by decide
theorem test_decode_reset : decodeWord 0b0111000000000000 = .instr .reset := by decide
theorem test_decode_svcMs : decode (.vector 0b00) = .instr .svcMs := by decide
theorem test_decode_svcTim : decode (.vector 0b01) = .instr .svcTim := by decide
theorem test_decode_svcBtnl : decode (.vector 0b10) = .instr .svcBtnl := by decide
theorem test_decode_svcBtnr : decode (.vector 0b11) = .instr .svcBtnr := by decide

/-- 0x5B00 stored low byte first (R81). -/
theorem test_decode_bytes_snap :
    decodeBytes [0x00, 0x5B, 0xFF] = .decoded (.instr .rdSnap) [0xFF] := by decide

theorem test_decode_odd_byte : decodeBytes [0x00] = .halfWord := by decide

/-- 95_test_vectors.md 2.1: the access check comes before the D check. -/
theorem test_reject_read_of_ledset : decodeWord 0x5901 = .reject .writeOnlyRead := by decide

theorem test_reject_a_nonzero : decodeWord 0x3100 = .reject .reservedField := by decide
theorem test_reject_reserved_address : decodeWord 0x6D01 = .reject .reservedAddress := by decide
theorem test_reject_write_of_pins : decodeWord 0x6C00 = .reject .readOnlyWrite := by decide
theorem test_reject_opcode_f : decodeWord 0xF5FF = .reject .illegalOpcode := by decide

theorem test_table_word_mstick : decodeTableWord 16 0x1000 = some .mstick := by decide
theorem test_table_vector_btnr : decodeTableWord 8 3 = some .svcBtnr := by decide
theorem test_table_word_zero : decodeTableWord 16 0 = none := by decide

/-! ## Events (95_test_vectors.md 2.2) -/

theorem test_mstick_ignored_when_disabled :
    (after .mstick base).map (·.msPend) = some false := by decide

theorem test_mstick_latches : (after .mstick live).map (·.msPend) = some true := by decide

theorem test_tclk_counts :
    (after .tclk { live with tcnt := 3 }).map (fun t => (t.tcnt, t.timPend)) = some (4, false) := by
  decide

theorem test_tclk_ticks :
    (after .tclk { live with tcnt := 7 }).map (fun t => (t.tcnt, t.timPend)) = some (0, true) := by
  decide

theorem test_pinl_falling_edge :
    (after (.pinl 0) live).map (fun t => (t.btnlPend, t.lvlL, t.btnrPend)) =
      some (true, false, false) := by decide

theorem test_pinl_rising_edge :
    (after (.pinl 1) { live with lvlL := false }).map (fun t => (t.btnlPend, t.lvlL)) =
      some (false, true) := by decide

theorem test_pinr_falling_edge :
    (after (.pinr 0) live).map (fun t => (t.btnrPend, t.lvlR, t.btnlPend)) =
      some (true, false, false) := by decide

theorem test_pinr_edge_while_disabled :
    (after (.pinr 0) base).map (fun t => (t.btnrPend, t.lvlR)) = some (false, false) := by decide

/-- 95_test_vectors.md 2.2.4. -/
theorem test_reset_values :
    (after .reset { live with position := 9, direction := .right, treload := 1, led := 0x0300 }).map
      (fun t => (t.position, t.direction, t.treload, t.led)) = some (0, .left, 7, 0) := by decide

theorem test_reset_keeps_ip_count :
    (after .reset { live with btnrPend := true, lvlL := false, ip := 4 }).map
      (fun t => (t.btnrPend, t.lvlL, t.btnrIe, t.ip)) = some (false, true, false, 5) := by decide

/-! ## Handlers (95_test_vectors.md 2.3) -/

theorem test_svcMs_wraps :
    (after .svcMs { busy with mscnt := 0xFFFFFFFF }).map (fun t => (t.mscnt, t.msPend, t.timPend)) =
      some (0, false, true) := by decide

theorem test_svcTim_left_wraps :
    (after .svcTim { live with timPend := true, position := 15 }).map
      (fun t => (t.position, t.rollover, t.timPend)) = some (0, true, false) := by decide

theorem test_svcTim_right_wraps :
    (after .svcTim { live with timPend := true, position := 0, direction := .right }).map
      (fun t => (t.position, t.rollover)) = some (15, true) := by decide

theorem test_svcBtnl_from_right :
    (after .svcBtnl { live with btnlPend := true, position := 4, direction := .right, tcnt := 2 }).map
      (fun t => (t.direction, t.position, t.btnlPend, t.rollover, t.tcnt)) =
      some (.left, 5, false, false, 2) := by decide

theorem test_svcBtnl_from_left :
    (after .svcBtnl { live with btnlPend := true, position := 7 }).map
      (fun t => (t.direction, t.position, t.btnlPend)) = some (.left, 7, false) := by decide

theorem test_svcBtnr_wraps :
    (after .svcBtnr { live with btnrPend := true, position := 0 }).map
      (fun t => (t.direction, t.position, t.rollover)) = some (.right, 15, true) := by decide

/-- The absorbed tick of table 2.3.2. -/
theorem test_svcBtnr_absorbs_tick :
    (after .svcBtnr { live with btnrPend := true, timPend := true, timIe := false, position := 5 }).map
      (fun t => (t.position, t.timPend)) = some (4, false) := by decide

theorem test_arbiter_all : arbitrate busy = some .ms := by decide
theorem test_arbiter_1100 :
    arbitrate { live with btnlPend := true, btnrPend := true } = some .btnl := by decide

/-! ## Host reads, the state of 95_test_vectors.md 2.4.1 -/

def seen : State :=
  { live with position := 6, direction := .right, rollover := true, speedLevel := 2,
              mscnt := 0x12345678, tcnt := 1, treload := 1, led := 0x0040, lvlR := false }

theorem test_rdPos : readPair .rdPos seen = some (0x0, 0x00000006) := by decide
theorem test_rdDir : readPair .rdDir seen = some (0x1, 0x00000001) := by decide
theorem test_rdStatus : readPair .rdStatus seen = some (0x2, 0x00000001) := by decide
theorem test_rdSpeed : readPair .rdSpeed seen = some (0x3, 0x00000002) := by decide
theorem test_rdCtrl : readPair .rdCtrl seen = some (0x4, 0x0000001F) := by decide
theorem test_rdMscnt : readPair .rdMscnt seen = some (0x5, 0x12345678) := by decide
theorem test_rdTcnt : readPair .rdTcnt seen = some (0x6, 0x00000001) := by decide
theorem test_rdTreload : readPair .rdTreload seen = some (0x7, 0x00000001) := by decide
theorem test_rdLed : readPair .rdLed seen = some (0x8, 0x00000040) := by decide
theorem test_rdSnap : readPair .rdSnap seen = some (0xB, 0x000000B6) := by decide
theorem test_rdPins : readPair .rdPins seen = some (0xC, 0x00000001) := by decide

/-- 95_test_vectors.md 2.4.2. -/
theorem test_rdStatus_masked_flag :
    readPair .rdStatus { base with timPend := true, rollover := true } = some (0x2, 0x00000005) := by
  decide

/-! ## Host writes (95_test_vectors.md 2.4.3 to 2.4.6) -/

theorem test_wrStatus_clears :
    (after (.wrStatus 1) { base with rollover := true }).map (·.rollover) = some false := by decide

theorem test_wrStatus_zero_keeps :
    (after (.wrStatus 0) { base with rollover := true }).map (·.rollover) = some true := by decide

theorem test_wrSpeed_vector :
    (after (.wrSpeed 2) { base with tcnt := 5, timPend := true }).map
      (fun t => (t.speedLevel, t.treload, t.tcnt, t.timPend)) = some (2, 1, 0, true) := by decide

theorem test_wrCtrl_timCen_only :
    (after (.wrCtrl 0x04) base).map
      (fun t => (t.msEn, t.timIe, t.timCen, t.btnlIe, t.btnrIe)) =
      some (false, false, true, false, false) := by decide

theorem test_wrLedset : (after (.wrLedset 1) { base with led := 0x0001 }).map (·.led) = some 0x0003 := by
  decide

theorem test_wrLedclr : (after (.wrLedclr 0) { base with led := 0x0003 }).map (·.led) = some 0x0002 := by
  decide

/-! ## The step -/

/-- 95_test_vectors.md 2.4.7: a held RD DIR gives way to SVC_BTNL. -/
theorem test_step_holds_host_word :
    (afterStep { live with direction := .right, btnlPend := true, trace := [0x5100] }).map
      (fun t => (t.direction, t.ip, t.hlog)) = some (.left, 0, []) := by decide

/-- P4's lazy schedule: the second press is taken before the first is served. -/
theorem test_step_lazy_turn :
    (afterStep { live with btnlPend := true, trace := [0x4000], schedule := [.word] }).map
      (fun t => (t.btnlPend, t.btnrPend, t.ip, t.schedule)) = some (true, true, 1, []) := by decide

/-- P6: WR POS faults, IP stays, nothing else changes. -/
theorem test_step_fault :
    afterStep { base with trace := [0x5C00, 0x6000], ip := 1 } =
      some { base with trace := [0x5C00, 0x6000], ip := 1, fault := some ⟨.readOnlyWrite, 0x6000⟩ } := by
  decide

theorem test_fetch_word_runs :
    (afterStep (State.reset.withFetchWord 16 0x6418)).map (fun t => (t.btnlIe, t.btnrIe, t.msEn, t.ip)) =
      some (true, true, false, 1) := by decide

theorem test_fetch_vector_runs :
    (afterStep (State.reset.withFetchWord 8 3)).map (fun t => (t.direction, t.position, t.rollover)) =
      some (.right, 15, true) := by decide

/-! ## The assembler (R79, R80) -/

/-- WR CTRL, 0x1F with a comment. -/
theorem test_assemble_line :
    assembleLine ['W', 'R', ' ', 'C', 'T', 'R', 'L', ',', ' ', '0', 'x', '1', 'F', ' ', ';', 'a'] =
      some [0x641F] := by decide

/-- RD 9 would fault WRITE_ONLY_READ; the second line is named. -/
theorem test_assemble_refuses :
    assemble [['M', 'S', 'T', 'I', 'C', 'K'], ['R', 'D', ' ', '9']] = .refused 2 := by decide

/-! ## Host procedures -/

/-- 95_test_vectors.md 2.4.9, the row of P 0, D L. -/
theorem test_display_words :
    displayWrites (snapValue base) = [.wrLedset 0, .wrLedclr 15] := by decide

/-- R171's example: s = 0x00000020 gives WR SPEED, 1 and WR STATUS, 0x01. -/
theorem test_rollover_words : rolloverWrites 0x00000020 = [.wrSpeed 1, .wrStatus 1] := by decide

/-! ## Witnesses: each statement's hypotheses hold somewhere, at the ends of their ranges -/

theorem base_running : base.fault = none := by decide

theorem base_free : HostMayRun base := ⟨by decide, by decide⟩

theorem base_inv : Inv base := by
  constructor
  · decide
  · decide
  · decide
  · intro r h
    cases h

def faultedBase : State := { base with trace := [0x6000], fault := some ⟨.readOnlyWrite, 0x6000⟩ }

theorem faulted_inv : Inv faultedBase := by
  constructor
  · decide
  · decide
  · decide
  · intro r h
    cases h
    exact ⟨by decide, by decide⟩

theorem witness_ResetTableAtStartAndAfterReset :
    busy.fault = none ∧ faultedBase.fault = some ⟨.readOnlyWrite, 0x6000⟩ := by decide

theorem witness_MstickLatchesWhenEnabled : live.fault = none := by decide

theorem witness_TclkCountsAndTicks :
    base.fault = none ∧ base.timCen = false ∧ live.fault = none ∧ live.timCen = true ∧
    (let s := { live with tcnt := 7 }; s.tcnt.toNat = s.treload.toNat) ∧
    (let s := { live with tcnt := 0xFFFFFFFF }; s.tcnt.toNat ≠ s.treload.toNat) := by decide

theorem witness_TickPeriodIsReloadPlusOnePulses :
    live.fault = none ∧ live.timCen = true ∧ live.tcnt.toNat = 0 ∧ 7 ≤ live.treload.toNat := by decide

theorem witness_OneSecondOfPulsesTicksAtTheRate :
    PlatformDuty live ∧ live.treload = live.reload live.speedLevel ∧ live.timCen = true ∧
    live.tcnt.toNat = 0 :=
  ⟨by unfold PlatformDuty; decide, by decide, by decide, by decide⟩

theorem witness_PinlLatchesOnFallingEdge :
    live.fault = none ∧ (1#8).toNat < 2 ∧ 2 ≤ (2#8).toNat ∧ 2 ≤ (0xFF#8).toNat := by decide

theorem witness_PinrLatchesOnFallingEdge :
    live.fault = none ∧ (0#8).toNat < 2 ∧ 2 ≤ (2#8).toNat := by decide

theorem witness_SecondMstickIsAbsorbed :
    (let s := { live with mscnt := 0xFFFFFFFF }; s.fault = none ∧ s.msEn = true) ∧
    base.fault = none ∧ base.msEn = false := by decide

theorem witness_SvcMsCountsMilliseconds :
    busy.fault = none ∧ busy.msPend = true ∧ busy.msEn = true := by decide

theorem witness_AdvanceMovesOneStep :
    base.direction = .left ∧ ({ base with direction := .right } : State).direction = .right := by decide

theorem witness_SvcTimAdvances :
    let s := { busy with msPend := false }
    s.fault = none ∧ s.timPend = true ∧ s.timIe = true ∧ ¬(s.msPend = true ∧ s.msEn = true) ∧
    s.direction = .left ∧ ({ s with direction := .right } : State).direction = .right := by decide

theorem witness_SvcBtnlTurnsLeftWithForcedTick :
    let s := { busy with msEn := false, timIe := false, direction := .right }
    s.fault = none ∧ s.btnlPend = true ∧ s.btnlIe = true ∧ ¬(s.msPend = true ∧ s.msEn = true) ∧
    ¬(s.timPend = true ∧ s.timIe = true) ∧ s.direction = .right ∧
    ({ s with direction := .left } : State).direction = .left := by decide

theorem witness_SvcBtnrTurnsRightWithForcedTick :
    let s := { live with btnrPend := true }
    s.fault = none ∧ s.btnrPend = true ∧ s.btnrIe = true ∧ ¬(s.msPend = true ∧ s.msEn = true) ∧
    ¬(s.timPend = true ∧ s.timIe = true) ∧ ¬(s.btnlPend = true ∧ s.btnlIe = true) ∧
    s.direction = .left ∧ ({ s with direction := .right } : State).direction = .right := by decide

theorem witness_UnselectedServiceStops :
    busy.fault = none ∧ arbitrate busy ≠ some .btnr ∧ arbitrate base ≠ some .ms := by decide

theorem witness_ServiceStepFrame : ∃ t, exec (serviceInstr .ms) busy = .next t := ⟨_, rfl⟩

theorem witness_BothButtonsServeLeftThenRight :
    let s := { live with btnlPend := true, btnrPend := true, position := 15, direction := .right }
    s.fault = none ∧ request s .ms = false ∧ request s .tim = false ∧ request s .btnl = true ∧
    request s .btnr = true ∧ s.direction = .right := by decide

theorem witness_ForcedTickComesWithTheTurn :
    ∃ t, exec (serviceInstr .btnr) { live with btnrPend := true, timPend := true, timIe := false } =
        .next t ∧ t.direction ≠ Direction.left :=
  ⟨_, rfl, by decide⟩

theorem witness_ReadsOfTheSharedState : HostMayRun seen := ⟨by decide, by decide⟩

theorem witness_ReadsOfFlagsEnablesAndPins :
    HostMayRun { base with msPend := true, timPend := true, btnlPend := true, btnrPend := true } :=
  ⟨by decide, by decide⟩

theorem witness_ReadsOfCountersAndLed : HostMayRun base ∧ Inv base := ⟨base_free, base_inv⟩

theorem witness_HostAccessesAreIdempotent :
    (isRead .rdSnap = true ∧ ∃ t, exec .rdSnap base = .next t) ∧
    (isWrite (.wrLedset 15) = true ∧ WellFormed (.wrLedset 15) = true ∧
      ∃ t, exec (.wrLedset 15) base = .next t ∧ arbitrate t = none) :=
  ⟨⟨by decide, _, rfl⟩, by decide, by decide, _, rfl, by decide⟩

theorem witness_HostWordWaitsForService :
    let s := { busy with trace := [0x5100] }
    s.fault = none ∧ fetch s = some 0x5100 ∧ isHostWord 0x5100 = true ∧ arbitrate s = some .ms := by
  decide

theorem witness_HeldHostOperationStops :
    (isRead .rdPos = true ∨ isWrite .rdPos = true) ∧ (isRead (.wrStatus 1) = true ∨
      isWrite (.wrStatus 1) = true) ∧ busy.fault = none ∧ arbitrate busy ≠ none := by decide

theorem witness_WrStatusClearsRollover :
    HostMayRun base ∧ (1#8).toNat < 2 ∧ 2 ≤ (2#8).toNat := ⟨base_free, by decide, by decide⟩

theorem witness_WrSpeedReprogramsTheTimer :
    HostMayRun base ∧ (3#8).toNat < 4 ∧ 4 ≤ (4#8).toNat := ⟨base_free, by decide, by decide⟩

theorem witness_WrCtrlSetsTheEnables :
    HostMayRun base ∧ (31#8).toNat < 32 ∧ 32 ≤ (32#8).toNat := ⟨base_free, by decide, by decide⟩

theorem witness_WrLedsetTurnsOneLineOn :
    HostMayRun base ∧ (15#8).toNat < 16 ∧ 16 ≤ (16#8).toNat := ⟨base_free, by decide, by decide⟩

theorem witness_WrLedclrTurnsOneLineOff :
    HostMayRun base ∧ (0#8).toNat < 16 ∧ 16 ≤ (0xFF#8).toNat := ⟨base_free, by decide, by decide⟩

theorem witness_LatchedFlagsSurviveEnableChanges :
    HostMayRun { base with btnlPend := true } ∧ (8#8).toNat < 32 :=
  ⟨⟨by decide, by decide⟩, by decide⟩

theorem witness_FaultIsPreciseAndSticky :
    (let s := { base with trace := [0x6000] }
     s.fault = none ∧ fetch s = some 0x6000 ∧ decodeWord 0x6000 = .reject .readOnlyWrite ∧
       arbitrate s = none) ∧
    (let s := { busy with trace := [0x1100], schedule := [.word] }
     s.fault = none ∧ fetch s = some 0x1100 ∧ decodeWord 0x1100 = .reject .reservedField ∧
       arbitrate s = some .ms ∧ isHostWord 0x1100 = false ∧ s.schedule = .word :: []) ∧
    faultedBase.fault = some ⟨.readOnlyWrite, 0x6000⟩ := by decide

theorem witness_DecodedOperationsNeverFault :
    WellFormed (.wrSpeed 3) = true ∧ ∃ t, exec (.wrSpeed 3) base = .next t := ⟨by decide, _, rfl⟩

theorem witness_OnlyFaultedAndFinalStatesStop :
    faultedBase.ip ≤ faultedBase.trace.length ∧
    faultedBase.fault = some ⟨.readOnlyWrite, 0x6000⟩ ∧
    base.ip ≤ base.trace.length ∧ Final base ∧
    busy.ip ≤ busy.trace.length ∧ busy.fault = none ∧ ¬ Final busy :=
  ⟨by decide, by decide, by decide, ⟨by decide, by decide, by decide⟩, by decide, by decide,
    fun h => absurd h.noRequest (by decide)⟩

theorem witness_StepRunsTheDecodedOperation :
    (let s := { base with trace := [0x1000] }
     s.fault = none ∧ fetch s = some 0x1000 ∧ decodeWord 0x1000 = .instr .mstick ∧
       arbitrate s = none) ∧
    (let s := { busy with trace := [0x5000] }
     s.fault = none ∧ fetch s = some 0x5000 ∧ decodeWord 0x5000 = .instr .rdPos ∧
       arbitrate s = some .ms ∧ isHostWord 0x5000 = true) ∧
    (let s := { busy with trace := [0x1000], schedule := [.word, .service] }
     s.fault = none ∧ fetch s = some 0x1000 ∧ decodeWord 0x1000 = .instr .mstick ∧
       arbitrate s = some .ms ∧ isHostWord 0x1000 = false ∧ s.schedule = .word :: [.service] ∧
       ({ s with schedule := [.service] } : State).schedule = .service :: [] ∧
       ({ s with schedule := [] } : State).schedule = []) ∧
    (busy.fault = none ∧ fetch busy = none ∧ arbitrate busy = some .ms) := by decide

theorem witness_PlacedOperationRunsNext :
    decodeTableWord 16 0x690F = some (.wrLedset 15) ∧ decodeTableWord 8 0 = some .svcMs := by decide

theorem witness_EveryStepIsATransition : ∃ t, step busy = .next t := ⟨_, rfl⟩

theorem witness_ScheduleRealisesEveryRun :
    ∃ t, Relation.ReflTransGen Transition { base with trace := [0x1000] } t ∧ t.ip = 1 :=
  ⟨_, .single (.word (w := 0x1000) (i := .mstick) (by decide) (by decide) (by decide) (by decide) rfl),
    rfl⟩

theorem witness_EagerServiceClearsRequests : busy.fault = none ∧ busy.schedule = [] := by decide

theorem witness_EveryRunOfATraceEnds :
    let s := { busy with trace := [0x1000, 0x6000], schedule := [.word] }
    s.fault = none ∧ s.ip ≤ s.trace.length := by decide

theorem witness_StepKeepsInvariant :
    Inv { live with trace := [0x2000] } ∧ ∃ t, step { live with trace := [0x2000] } = .next t :=
  ⟨⟨by decide, by decide, by decide, fun r h => by cases h⟩, _, rfl⟩

theorem witness_StepKeepsTraceAndExtendsLog :
    ∃ t, step { base with trace := [0x5B00] } = .next t ∧ t.ip = 1 := ⟨_, rfl, rfl⟩

theorem witness_FieldsChangeOnlyByTheirWriters :
    (∃ t, exec .svcMs busy = .next t ∧ t.mscnt ≠ busy.mscnt) ∧
    (∃ t, exec .mstick base = .next t ∧ t.ip ≠ base.ip) ∧
    (∃ t, exec (.wrSpeed 4) base = .next t ∧ t.fault ≠ base.fault) :=
  ⟨⟨_, rfl, by decide⟩, ⟨_, rfl, by decide⟩, ⟨_, rfl, by decide⟩⟩

theorem witness_UnusedParametersEnterNoRule :
    let p : Params := { testParams with fTclk := 1, ledTable := ⟨Vector.range 16, by decide⟩ }
    p.reloadTable = base.params.reloadTable ∧ p ≠ base.params := by decide

theorem witness_MscntHasNoConsumer :
    Instr.mstick ≠ .rdMscnt ∧ Instr.mstick ≠ .svcMs ∧ Instr.mstick ≠ .reset := by decide

/-- A position's line, and a line of no position. -/
theorem witness_LinesFollowTheLedImage :
    lineOf base 15 = 115 ∧ ∀ p : BitVec 4, lineOf base p ≠ 99 := by decide

theorem witness_DecodeOfEncodeIsTheOperation :
    WellFormed (.pinl 1) = true ∧ WellFormed (.wrStatus 1) = true ∧ WellFormed (.wrSpeed 3) = true ∧
    WellFormed (.wrCtrl 31) = true ∧ WellFormed (.wrLedclr 15) = true ∧ WellFormed .svcBtnr = true := by
  decide

theorem witness_EncodeOfDecodeIsTheCode :
    decode (.word 0x6303) = .instr (.wrSpeed 3) ∧ decode (.vector 3) = .instr .svcBtnr := by decide

theorem witness_DecodingAcceptsExactlyTheOpcodeMap :
    (⟨0x6300, 0xFFFC⟩ : MapRow) ∈ opcodeMap ∧ 0x6303#16 &&& 0xFFFC = 0x6300 := by decide

theorem witness_RejectionsFollowTheCheckOrder :
    ∀ w ∈ [0x0000#16, 0x8000#16, 0xFFFF#16, 0x1100#16, 0x5D00#16, 0x6F00#16, 0x6800#16, 0x5A00#16,
      0x5001#16, 0x6304#16], ¬ ∃ r ∈ opcodeMap, w &&& r.mask = r.pattern := by
  intro w hw
  have h : ([0x0000#16, 0x8000#16, 0xFFFF#16, 0x1100#16, 0x5D00#16, 0x6F00#16, 0x6800#16, 0x5A00#16,
      0x5001#16, 0x6304#16].all fun w => opcodeMap.all fun r => w &&& r.mask != r.pattern) = true := by
    decide +kernel
  have h' := List.all_eq_true.mp h w hw
  rintro ⟨r, hr, e⟩
  have := List.all_eq_true.mp h' r hr
  simp [e] at this

/-- Number texts at the ends of their ranges, a register by name and by number. -/
theorem witness_AssemblerReadsOperands :
    parseNumber "1".toList = some 1 ∧ parseNumber "2".toList = some 2 ∧
    parseNumber "0xFF".toList = some 255 ∧ parseNumber "256".toList = some 256 ∧
    parseNumber "15".toList = some 15 ∧ parseNumber "16".toList = some 16 ∧
    HostReg.speed.addr.toNat = 3 ∧ 3 < 16 ∧
    decodeWord (BitVec.ofNat 16 (0x5000 + 256 * 3)) = .instr .rdSpeed ∧
    decodeWord (BitVec.ofNat 16 (0x5000 + 256 * 15)) = .reject .reservedAddress ∧
    decodeWord (BitVec.ofNat 16 (0x6000 + 256 * 3 + 3)) = .instr (.wrSpeed 3) ∧
    decodeWord (BitVec.ofNat 16 (0x6000 + 256 * 3 + 255)) = .reject .reservedField := by decide

/-- Lines that assemble, a line that is refused, and a text whose words all decode. -/
theorem witness_AssemblerGivesOnlyLegalWords :
    (∀ l ∈ ["MSTICK".toList], (assembleLine l).isSome = true) ∧
    assembleLine "RD 9".toList = none ∧
    (∀ l ∈ ["TICKS 2".toList], assembleLine l = some [0x2000, 0x2000]) ∧
    assemble ["TICKS 2".toList, "RESET".toList] = .words [0x2000, 0x2000, 0x7000] := by decide

theorem witness_PseudoOperationsExpand : 15 < 16 ∧ 3 < 4 := by decide

theorem witness_StartupEnablesEverySource : State.reset.fault = none ∧ pendingCount State.reset = 0 := by
  decide

theorem witness_DisplayRunMovesTheLitLine : HostMayRun { base with led := 0x8000 } :=
  ⟨by decide, by decide⟩

/-- Both sides of R241: the current position one step from P, and two steps from it (program P5). -/
theorem witness_DisplayKeepsOneLitUnderItsPremise :
    (let s := { base with position := 6, led := 0x0020 }
     HostMayRun s ∧ OnlyLit s 5 ∧ prevPosition s.position s.direction = 5) ∧
    (let s := { base with position := 7, led := 0x0020 }
     HostMayRun s ∧ OnlyLit s 5 ∧ ¬(s.position = 5 ∨ prevPosition s.position s.direction = 5)) :=
  ⟨⟨⟨by decide, by decide⟩, by unfold OnlyLit; decide, by decide⟩,
    ⟨by decide, by decide⟩, by unfold OnlyLit; decide, by decide⟩

theorem witness_RolloverProcedureStepsTheSpeed :
    HostMayRun base ∧ base.rollover = false ∧ HostMayRun { base with rollover := true } :=
  ⟨base_free, by decide, by decide, by decide⟩

theorem witness_IterationIsDisplayThenRollover : HostMayRun seen := ⟨by decide, by decide⟩

end Sys2Proof.Tests
end

section
/-! What an operation does beside a change of the state that its enabling condition and its bookkeeping
do not see. -/

namespace Sys2Proof.Safety

open Sys2Proof.Machine

@[simp] theorem mapNext_next (f : State → State) (t : State) :
    mapNext f (.next t) = .next (f t) := rfl

@[simp] theorem mapNext_fault (f : State → State) (r : Fault) :
    mapNext f (.fault r) = .fault r := rfl

/-- A change of the state that no enabling condition reads (R121, R150, R203) and that commutes with
the shared updates: IP, HLOG and FAULT. -/
structure Passive (f : State → State) : Prop where
  fault_eq : ∀ s, (f s).fault = s.fault
  arbitrate_eq : ∀ s, arbitrate (f s) = arbitrate s
  consume_comm : ∀ s, consume (f s) = f (consume s)
  hostReturn_comm : ∀ a v s, hostReturn a v (f s) = f (hostReturn a v s)
  raiseFault_comm : ∀ c w s, raiseFault c w (f s) = f (raiseFault c w s)

namespace Passive

variable {f : State → State} {s : State}

theorem whenRunning_mapNext (hf : Passive f) (k : Result) :
    whenRunning (f s) (mapNext f k) = mapNext f (whenRunning s k) := by
  cases hs : s.fault with
  | none => rw [whenRunning_of_none hs, whenRunning_of_none ((hf.fault_eq s).trans hs)]
  | some r => rw [whenRunning_of_some hs, whenRunning_of_some ((hf.fault_eq s).trans hs), mapNext_fault]

theorem whenHostMayRun_mapNext (hf : Passive f) (k : Result) :
    whenHostMayRun (f s) (mapNext f k) = mapNext f (whenHostMayRun s k) := by
  unfold whenHostMayRun
  rw [hf.arbitrate_eq, ← hf.whenRunning_mapNext, apply_ite (mapNext f), mapNext_fault]

theorem whenSelected_mapNext (hf : Passive f) (v : IrqVector) (k : Result) :
    whenSelected v (f s) (mapNext f k) = mapNext f (whenSelected v s k) := by
  unfold whenSelected
  rw [hf.arbitrate_eq, ← hf.whenRunning_mapNext, apply_ite (mapNext f), mapNext_fault]

theorem takeFault_mapNext (hf : Passive f) (c : FaultCode) (w : Word) :
    takeFault c w (f s) = mapNext f (takeFault c w s) := by
  rw [takeFault, hf.raiseFault_comm, takeFault, mapNext_next]

/-- What an operation does after its data check, where its effect commutes with the change. -/
theorem checked_mapNext (hf : Passive f) {effect : State → State}
    (he : effect (f s) = f (effect s)) (ok : Bool) (c : FaultCode) (w : Word) :
    (if ok then .next (consume (effect (f s))) else takeFault c w (f s)) =
      mapNext f (if ok then .next (consume (effect s)) else takeFault c w s) := by
  rw [he, hf.consume_comm, hf.takeFault_mapNext, apply_ite (mapNext f), mapNext_next]

theorem eventStep_mapNext (hf : Passive f) {effect : State → State}
    (he : effect (f s) = f (effect s)) :
    eventStep effect (f s) = mapNext f (eventStep effect s) := by
  rw [eventStep, eventStep, he, hf.consume_comm, ← hf.whenRunning_mapNext, mapNext_next]

theorem pinStep_mapNext (hf : Passive f) {effect : State → State} {w : Word} {d : Byte}
    (he : effect (f s) = f (effect s)) :
    pinStep w d effect (f s) = mapNext f (pinStep w d effect s) := by
  rw [pinStep, pinStep, hf.checked_mapNext he, hf.whenRunning_mapNext]

theorem readStep_mapNext (hf : Passive f) {r : HostReg} {v v' : RegVal} (hv : v' = v) :
    readStep r v' (f s) = mapNext f (readStep r v s) := by
  rw [readStep, readStep, hv, hf.hostReturn_comm, hf.consume_comm, ← hf.whenHostMayRun_mapNext,
    mapNext_next]

theorem writeStep_mapNext (hf : Passive f) {effect : State → State} {r : HostReg} {d : Byte}
    (he : effect (f s) = f (effect s)) :
    writeStep r d effect (f s) = mapNext f (writeStep r d effect s) := by
  rw [writeStep, writeStep, hf.checked_mapNext he, hf.whenHostMayRun_mapNext]

theorem serviceStep_mapNext (hf : Passive f) {handler : State → State} {v : IrqVector}
    (he : handler (f s) = f (handler s)) :
    serviceStep v handler (f s) = mapNext f (serviceStep v handler s) := by
  rw [serviceStep, serviceStep, he, ← hf.whenSelected_mapNext, mapNext_next]

end Passive

end Sys2Proof.Safety
end

section
/-! The `OPEN` parameters enter the rules through `RELOAD` alone (R6, R31, R56). -/

namespace Sys2Proof.Safety

open Sys2Proof.Machine

/-- The state under other parameters. -/
def setParams (p : Params) (s : State) : State := { s with params := p }

theorem passive_setParams (p : Params) : Passive (setParams p) where
  fault_eq _ := rfl
  arbitrate_eq _ := rfl
  consume_comm _ := rfl
  hostReturn_comm _ _ _ := rfl
  raiseFault_comm _ _ _ := rfl

variable {p : Params} {s : State}

theorem reload_setParams (h : p.reloadTable = s.params.reloadTable) (l : BitVec 2) :
    (setParams p s).reload l = s.reload l := by
  simp only [State.reload, setParams, h]

/-! ## The effects -/

theorem timerPulse_setParams : timerPulse (setParams p s) = setParams p (timerPulse s) := by
  rw [timerPulse, timerPulse, apply_ite (setParams p), apply_ite (setParams p)]
  rfl

theorem turnTo_setParams (d : Direction) :
    turnTo d (setParams p s) = setParams p (turnTo d s) := by
  rw [turnTo, turnTo, apply_ite (setParams p)]
  rfl

/-- Speed reprogramming reads its level's `RELOAD` (R158). -/
theorem setSpeed_setParams (h : p.reloadTable = s.params.reloadTable) (l : BitVec 2) :
    setSpeed l (setParams p s) = setParams p (setSpeed l s) := by
  rw [setSpeed, reload_setParams h]
  rfl

/-- RESET reads level 0's `RELOAD` (R104). -/
theorem resetFields_setParams (h : p.reloadTable = s.params.reloadTable) :
    resetFields (setParams p s) = setParams p (resetFields s) := by
  rw [resetFields, reload_setParams h]
  rfl

/-! ## Operations and steps -/

/-- WR SPEED and RESET are the two cases that use `h`: no other effect reads a parameter. -/
theorem exec_setParams (i : Instr) (h : p.reloadTable = s.params.reloadTable) :
    exec i (setParams p s) = mapNext (setParams p) (exec i s) := by
  have hp := passive_setParams p
  cases i with
  | mstick => exact hp.eventStep_mapNext rfl
  | tclk => exact hp.eventStep_mapNext timerPulse_setParams
  | reset => exact hp.eventStep_mapNext (resetFields_setParams h)
  | pinl | pinr => exact hp.pinStep_mapNext rfl
  | rdPos | rdDir | rdStatus | rdSpeed | rdCtrl | rdMscnt | rdTcnt | rdTreload | rdLed | rdSnap
  | rdPins => exact hp.readStep_mapNext rfl
  | wrSpeed => exact hp.writeStep_mapNext (setSpeed_setParams h _)
  | wrStatus | wrCtrl | wrLedset | wrLedclr => exact hp.writeStep_mapNext rfl
  | svcMs | svcTim => exact hp.serviceStep_mapNext rfl
  | svcBtnl =>
    exact hp.serviceStep_mapNext (turnTo_setParams (s := { s with btnlPend := false }) .left)
  | svcBtnr =>
    exact hp.serviceStep_mapNext (turnTo_setParams (s := { s with btnrPend := false }) .right)

theorem takeTurn_setParams : takeTurn (setParams p s) = setParams p (takeTurn s) := by
  rw [takeTurn, takeTurn, apply_ite (setParams p)]
  rfl

theorem takeTurn_params (s : State) : (takeTurn s).params = s.params := by
  rw [takeTurn_eq]

theorem step_of_faulted {r : FaultRecord} (hf : s.fault = some r) :
    step s = .fault (.faulted r) := by
  simp only [step, hf]

theorem step_setParams (h : p.reloadTable = s.params.reloadTable) :
    step (setParams p s) = mapNext (setParams p) (step s) := by
  have hexec (i : Instr) :
      exec i (takeTurn (setParams p s)) = mapNext (setParams p) (exec i (takeTurn s)) := by
    rw [takeTurn_setParams, exec_setParams i (h.trans (by rw [takeTurn_params]))]
  cases hf : s.fault with
  | some r => rw [step_of_faulted hf, step_of_faulted (s := setParams p s) hf, mapNext_fault]
  | none =>
    cases ha : nextAction s with
    | idle => rw [step_of_idle hf ha, step_of_idle (s := setParams p s) hf ha, mapNext_fault]
    | service v =>
      rw [step_of_service hf ha, step_of_service (s := setParams p s) hf ha, hexec]
    | word w =>
      cases hd : decodeWord w with
      | instr i =>
        rw [step_of_word hf ha hd, step_of_word (s := setParams p s) hf ha hd, hexec]
      | reject c =>
        rw [step_of_badWord hf ha hd, step_of_badWord (s := setParams p s) hf ha hd,
          takeTurn_setParams, mapNext_next, (passive_setParams p).raiseFault_comm]

/-- Settles O44: every operation does the same beside a change of the parameters that keeps `RELOAD`,
and the choice of the next step reads no parameter. -/
theorem unusedParametersEnterNoRule : Obligations.UnusedParametersEnterNoRule :=
  fun _ _ h => step_setParams h

end Sys2Proof.Safety
end

section
/-! What an operation that runs leaves, with the fields it writes made visible, and what the decoder
answers; every step is one of these. -/

namespace Sys2Proof.Safety

open Sys2Proof.Machine

/-! ## Effects that branch, as updates of the fields they write -/

/-- TCLK writes TCNT and TIM_PEND (R101). -/
theorem timerPulse_eq (s : State) :
    timerPulse s =
      { s with tcnt := (timerPulse s).tcnt, timPend := (timerPulse s).timPend } := by
  unfold timerPulse
  split_ifs <;> rfl

/-- A turn writes what its ADVANCE writes, and DIRECTION (R126, R127). -/
theorem turnTo_eq (d : Direction) (s : State) :
    turnTo d s =
      { s with
        timPend := (turnTo d s).timPend
        position := (turnTo d s).position
        rollover := (turnTo d s).rollover
        direction := (turnTo d s).direction } := by
  unfold turnTo
  split_ifs <;> rfl

theorem advance_keeps_rollover {s : State} (h : s.rollover = true) :
    (advance s).rollover = true := by
  simp [rolloverAfterAdvance, h]

theorem turnTo_keeps_rollover (d : Direction) {s : State} (h : s.rollover = true) :
    (turnTo d s).rollover = true := by
  unfold turnTo
  split_ifs
  · exact h
  · exact advance_keeps_rollover (s := { s with direction := d }) h

theorem clearRollover_keeps_clear (c : Bool) {s : State} (h : s.rollover = false) :
    (clearRollover c s).rollover = false := by
  simp [rolloverAfterClear, h]

/-- The count goes up only below the reload value, so it does not pass it (R36 (d), R101). -/
theorem timerPulse_tcnt_le {s : State} (h : s.tcnt.toNat ≤ s.treload.toNat) :
    (timerPulse s).tcnt.toNat ≤ s.treload.toNat := by
  unfold timerPulse
  split_ifs with _ hr
  · exact Nat.zero_le _
  · have hne : s.tcnt ≠ s.treload := by simpa [atReload] using hr
    show (s.tcnt + 1).toNat ≤ s.treload.toNat
    bv_omega
  · exact h

/-! ## What an operation that runs leaves -/

/-- The state an operation leaves when it runs and its data byte breaks no constraint: `exec_next`. A
field that an arm does not name is, by definition, the one before. -/
def completed : Instr → State → State
  | .mstick, s => consume (msTick s)
  | .tclk, s =>
    consume { s with tcnt := (timerPulse s).tcnt, timPend := (timerPulse s).timPend }
  | .pinl d, s => consume (sampleLeft (levelOperand d) s)
  | .pinr d, s => consume (sampleRight (levelOperand d) s)
  | .rdPos, s => consume (hostReturn HostReg.pos.addr (posValue s) s)
  | .rdDir, s => consume (hostReturn HostReg.dir.addr (dirValue s) s)
  | .rdStatus, s => consume (hostReturn HostReg.status.addr (statusValue s) s)
  | .rdSpeed, s => consume (hostReturn HostReg.speed.addr (speedValue s) s)
  | .rdCtrl, s => consume (hostReturn HostReg.ctrl.addr (ctrlValue s) s)
  | .rdMscnt, s => consume (hostReturn HostReg.mscnt.addr (mscntValue s) s)
  | .rdTcnt, s => consume (hostReturn HostReg.tcnt.addr (tcntValue s) s)
  | .rdTreload, s => consume (hostReturn HostReg.treload.addr (treloadValue s) s)
  | .rdLed, s => consume (hostReturn HostReg.led.addr (ledValue s) s)
  | .rdSnap, s => consume (hostReturn HostReg.snap.addr (snapValue s) s)
  | .rdPins, s => consume (hostReturn HostReg.pins.addr (pinsValue s) s)
  | .wrStatus d, s => consume (clearRollover (clearOperand d) s)
  | .wrSpeed d, s => consume (setSpeed (speedOperand d) s)
  | .wrCtrl d, s => consume (setEnables d s)
  | .wrLedset d, s => consume (setLed (positionOperand d) s)
  | .wrLedclr d, s => consume (clearLed (positionOperand d) s)
  | .reset, s => consume (resetFields s)
  | .svcMs, s => msHandler s
  | .svcTim, s => advance s
  | .svcBtnl, s =>
    { s with
      btnlPend := false
      timPend := (btnlHandler s).timPend
      position := (btnlHandler s).position
      rollover := (btnlHandler s).rollover
      direction := (btnlHandler s).direction }
  | .svcBtnr, s =>
    { s with
      btnrPend := false
      timPend := (btnrHandler s).timPend
      position := (btnrHandler s).position
      rollover := (btnrHandler s).rollover
      direction := (btnrHandler s).direction }

/-! R72's masks of the unused bits are the bounds of `WellFormed`. -/

theorem pinDataOk_pinl : ∀ d : Byte, pinDataOk d = WellFormed (.pinl d) := by decide
theorem pinDataOk_pinr : ∀ d : Byte, pinDataOk d = WellFormed (.pinr d) := by decide
theorem writeDataOk_status : ∀ d : Byte, writeDataOk .status d = WellFormed (.wrStatus d) := by decide
theorem writeDataOk_speed : ∀ d : Byte, writeDataOk .speed d = WellFormed (.wrSpeed d) := by decide
theorem writeDataOk_ctrl : ∀ d : Byte, writeDataOk .ctrl d = WellFormed (.wrCtrl d) := by decide
theorem writeDataOk_ledset : ∀ d : Byte, writeDataOk .ledset d = WellFormed (.wrLedset d) := by decide
theorem writeDataOk_ledclr : ∀ d : Byte, writeDataOk .ledclr d = WellFormed (.wrLedclr d) := by decide

variable {i : Instr} {s t : State} {w : Word}

/-- How an operation that answers a next state ends: its own effect, or R72's fault where its data byte
breaks R72. -/
def Ends (i : Instr) (s t : State) : Prop :=
  t = completed i s ∨ (WellFormed i = false ∧ ∃ w, t = raiseFault .reservedField w s)

theorem ends_of_pinStep {d : Byte} {f : State → State} (hok : pinDataOk d = WellFormed i)
    (hc : consume (f s) = completed i s) (h : pinStep w d f s = .next t) :
    s.fault = none ∧ Ends i s t := by
  obtain ⟨hf, ⟨-, ht⟩ | ⟨hd, ht⟩⟩ := pinStep_next h
  · exact ⟨hf, .inl (ht.trans hc)⟩
  · exact ⟨hf, .inr ⟨hok.symm.trans hd, w, ht⟩⟩

theorem ends_of_writeStep {r : HostReg} {d : Byte} {f : State → State}
    (hok : writeDataOk r d = WellFormed i) (hc : consume (f s) = completed i s)
    (h : writeStep r d f s = .next t) : s.fault = none ∧ Ends i s t := by
  obtain ⟨hf, -, ⟨-, ht⟩ | ⟨hd, ht⟩⟩ := writeStep_next h
  · exact ⟨hf, .inl (ht.trans hc)⟩
  · exact ⟨hf, .inr ⟨hok.symm.trans hd, _, ht⟩⟩

/-- Everything an operation that answers a next state can do. -/
theorem exec_next (h : exec i s = .next t) : s.fault = none ∧ Ends i s t := by
  cases i with
  | mstick | reset =>
    obtain ⟨hf, ht⟩ := eventStep_next h
    exact ⟨hf, .inl ht⟩
  | tclk =>
    obtain ⟨hf, ht⟩ := eventStep_next h
    exact ⟨hf, .inl (ht.trans (congrArg consume (timerPulse_eq s)))⟩
  | pinl d => exact ends_of_pinStep (pinDataOk_pinl d) rfl h
  | pinr d => exact ends_of_pinStep (pinDataOk_pinr d) rfl h
  | rdPos | rdDir | rdStatus | rdSpeed | rdCtrl | rdMscnt | rdTcnt | rdTreload | rdLed | rdSnap
  | rdPins =>
    obtain ⟨hf, -, ht⟩ := readStep_next h
    exact ⟨hf, .inl ht⟩
  | wrStatus d => exact ends_of_writeStep (writeDataOk_status d) rfl h
  | wrSpeed d => exact ends_of_writeStep (writeDataOk_speed d) rfl h
  | wrCtrl d => exact ends_of_writeStep (writeDataOk_ctrl d) rfl h
  | wrLedset d => exact ends_of_writeStep (writeDataOk_ledset d) rfl h
  | wrLedclr d => exact ends_of_writeStep (writeDataOk_ledclr d) rfl h
  | svcMs | svcTim =>
    obtain ⟨hf, -, ht⟩ := serviceStep_next h
    exact ⟨hf, .inl ht⟩
  | svcBtnl =>
    obtain ⟨hf, -, ht⟩ := serviceStep_next h
    exact ⟨hf, .inl (ht.trans (turnTo_eq .left { s with btnlPend := false }))⟩
  | svcBtnr =>
    obtain ⟨hf, -, ht⟩ := serviceStep_next h
    exact ⟨hf, .inl (ht.trans (turnTo_eq .right { s with btnrPend := false }))⟩

theorem exec_next_of_wellFormed (hw : WellFormed i = true) (h : exec i s = .next t) :
    t = completed i s := by
  obtain ⟨-, ht | ⟨hbad, -⟩⟩ := exec_next h
  · exact ht
  · simp [hw] at hbad

/-! ## Fields no operation writes, IP and HLOG -/

@[simp] theorem completed_fault : (completed i s).fault = s.fault := by cases i <;> rfl

@[simp] theorem completed_trace : (completed i s).trace = s.trace := by cases i <;> rfl

@[simp] theorem completed_params : (completed i s).params = s.params := by cases i <;> rfl

theorem completed_ip_of_service (h : isService i = true) : (completed i s).ip = s.ip := by
  cases i with
  | svcMs | svcTim | svcBtnl | svcBtnr => rfl
  | _ => cases h

theorem completed_ip_of_word (h : isService i = false) : (completed i s).ip = s.ip + 1 := by
  cases i with
  | svcMs | svcTim | svcBtnl | svcBtnr => cases h
  | _ => rfl

theorem completed_hlog_of_not_read (h : isRead i = false) : (completed i s).hlog = s.hlog := by
  cases i with
  | rdPos | rdDir | rdStatus | rdSpeed | rdCtrl | rdMscnt | rdTcnt | rdTreload | rdLed | rdSnap
  | rdPins => cases h
  | _ => rfl

theorem completed_hlog_of_read (h : isRead i = true) :
    ∃ p, (completed i s).hlog = s.hlog ++ [p] := by
  cases i with
  | rdPos | rdDir | rdStatus | rdSpeed | rdCtrl | rdMscnt | rdTcnt | rdTreload | rdLed | rdSnap
  | rdPins => exact ⟨_, rfl⟩
  | _ => cases h

theorem not_read_of_service (h : isService i = true) : isRead i = false := by
  cases i with
  | svcMs | svcTim | svcBtnl | svcBtnr => rfl
  | _ => cases h

/-! ## What the decoder answers -/

/-- An operation that a word can name: no service step (R75), and its data byte keeps R72. -/
structure WordOp (i : Instr) : Prop where
  wellFormed : WellFormed i = true
  notService : isService i = false

theorem wordOp_of_decodeEvent {j : Instr} {a : HostAddr} {d : Byte} (hi : WordOp i)
    (h : decodeEvent i a d = .instr j) : WordOp j := by
  unfold decodeEvent at h
  split_ifs at h
  cases h
  exact hi

theorem wordOp_of_decodePin {j : Instr} {a : HostAddr} {d : Byte}
    (hi : pinDataOk d = true → WordOp i) (h : decodePin i a d = .instr j) : WordOp j := by
  unfold decodePin at h
  split_ifs at h with hd
  cases h
  exact hi (by simpa [pinDataOk] using hd.2)

theorem wordOp_of_readForm {r : HostReg} (h : readForm r = some i) : WordOp i := by
  cases r <;> cases h <;> exact ⟨rfl, rfl⟩

theorem wordOp_of_decodeRead {a : HostAddr} {d : Byte} (h : decodeRead a d = .instr i) :
    WordOp i := by
  unfold decodeRead at h
  split at h
  · cases h
  split at h
  · cases h
  · split_ifs at h
    cases h
    exact wordOp_of_readForm ‹_›

theorem wordOp_of_writeForm {r : HostReg} {d : Byte} (hok : writeDataOk r d = true)
    (h : writeForm d r = some i) : WordOp i := by
  cases r with
  | status => cases h; exact ⟨(writeDataOk_status d).symm.trans hok, rfl⟩
  | speed => cases h; exact ⟨(writeDataOk_speed d).symm.trans hok, rfl⟩
  | ctrl => cases h; exact ⟨(writeDataOk_ctrl d).symm.trans hok, rfl⟩
  | ledset => cases h; exact ⟨(writeDataOk_ledset d).symm.trans hok, rfl⟩
  | ledclr => cases h; exact ⟨(writeDataOk_ledclr d).symm.trans hok, rfl⟩
  | _ => cases h

theorem wordOp_of_decodeWrite {a : HostAddr} {d : Byte} (h : decodeWrite a d = .instr i) :
    WordOp i := by
  unfold decodeWrite at h
  split at h
  · cases h
  split at h
  · cases h
  · split_ifs at h with hd
    cases h
    exact wordOp_of_writeForm (by simpa [writeDataOk] using hd) ‹_›

/-- A word that decodes names no service step and keeps R72 (R72, R75, R77). -/
theorem wordOp_of_decodeWord (h : decodeWord w = .instr i) : WordOp i := by
  unfold decodeWord at h
  dsimp only at h
  split_ifs at h
  · exact wordOp_of_decodeEvent ⟨rfl, rfl⟩ h
  · exact wordOp_of_decodeEvent ⟨rfl, rfl⟩ h
  · exact wordOp_of_decodePin (fun hd => ⟨(pinDataOk_pinl (dataField w)).symm.trans hd, rfl⟩) h
  · exact wordOp_of_decodePin (fun hd => ⟨(pinDataOk_pinr (dataField w)).symm.trans hd, rfl⟩) h
  · exact wordOp_of_decodeRead h
  · exact wordOp_of_decodeWrite h
  · exact wordOp_of_decodeEvent ⟨rfl, rfl⟩ h

theorem serviceInstr_wellFormed (v : IrqVector) : WellFormed (serviceInstr v) = true := by
  cases v <;> rfl

theorem isService_serviceInstr (v : IrqVector) : isService (serviceInstr v) = true := by
  cases v <;> rfl

/-! ## What a step leaves -/

theorem takeTurn_ip (s : State) : (takeTurn s).ip = s.ip := by rw [takeTurn_eq]

theorem takeTurn_hlog (s : State) : (takeTurn s).hlog = s.hlog := by rw [takeTurn_eq]

theorem takeTurn_trace (s : State) : (takeTurn s).trace = s.trace := by rw [takeTurn_eq]

theorem takeTurn_fault (s : State) : (takeTurn s).fault = s.fault := by rw [takeTurn_eq]

theorem fetch_takeTurn (s : State) : fetch (takeTurn s) = fetch s := by
  rw [fetch, takeTurn_trace, takeTurn_ip, fetch]

/-- The three ends of a step, after its turn is taken: a service step, the operation of the word at IP,
or that word's fault. -/
theorem step_next_completed (h : step s = .next t) :
    (takeTurn s).fault = none ∧
    ((∃ i, isService i = true ∧ t = completed i (takeTurn s)) ∨
     (∃ w i, fetch (takeTurn s) = some w ∧ isService i = false ∧ t = completed i (takeTurn s)) ∨
     (∃ w c, fetch (takeTurn s) = some w ∧ decodeWord w = .reject c ∧
       t = raiseFault c w (takeTurn s))) := by
  rw [takeTurn_fault, fetch_takeTurn]
  obtain ⟨hf, ⟨v, -, hx⟩ | ⟨w, i, ha, hd, hx⟩ | ⟨w, c, ha, hd, ht⟩⟩ := step_next h
  · exact ⟨hf, .inl ⟨_, isService_serviceInstr v,
      exec_next_of_wellFormed (serviceInstr_wellFormed v) hx⟩⟩
  · have hi := wordOp_of_decodeWord hd
    exact ⟨hf, .inr (.inl ⟨w, i, (fetch_of_nextAction_word ha).1, hi.notService,
      exec_next_of_wellFormed hi.wellFormed hx⟩)⟩
  · exact ⟨hf, .inr (.inr ⟨w, c, (fetch_of_nextAction_word ha).1, hd, ht⟩)⟩

theorem ip_lt_of_fetch (h : fetch s = some w) : s.ip < s.trace.length :=
  (List.getElem?_eq_some_iff.mp h).1

end Sys2Proof.Safety
end

section
/-! The invariants of R36 and the bookkeeping of IP, HLOG and FAULT, from reset through every step. -/

namespace Sys2Proof.Safety

open Sys2Proof.Machine

variable {i : Instr} {s t : State}

/-- WR SPEED and RESET write SPEED_LEVEL and TRELOAD together; nothing else writes either (R36 (c)). -/
theorem completed_keeps_reloadOfLevel (h : s.treload = s.reload s.speedLevel) :
    (completed i s).treload = (completed i s).reload (completed i s).speedLevel := by
  cases i with
  | wrSpeed d | reset => rfl
  | _ => exact h

/-- TCLK keeps the count in range; WR SPEED and RESET write 0 with a new TRELOAD (R36 (d)). -/
theorem completed_keeps_countInRange (h : s.tcnt.toNat ≤ s.treload.toNat) :
    (completed i s).tcnt.toNat ≤ (completed i s).treload.toNat := by
  cases i with
  | tclk => exact timerPulse_tcnt_le h
  | wrSpeed d | reset => exact Nat.zero_le _
  | _ => exact h

/-- The invariants do not speak of the schedule. -/
theorem takeTurn_keeps_inv (h : Inv s) : Inv (takeTurn s) := by
  rw [takeTurn_eq]
  exact ⟨h.reloadOfLevel, h.countInRange, h.ipInTrace, h.faultAtIp⟩

theorem completed_keeps_inv (hs : Inv s) (hf : s.fault = none)
    (hip : (completed i s).ip ≤ s.trace.length) : Inv (completed i s) where
  reloadOfLevel := completed_keeps_reloadOfLevel hs.reloadOfLevel
  countInRange := completed_keeps_countInRange hs.countInRange
  ipInTrace := by rwa [completed_trace]
  faultAtIp r hr := by simp [hf] at hr

theorem raiseFault_keeps_inv {c : FaultCode} {w : Word} (hs : Inv s) (hw : fetch s = some w)
    (hd : decodeWord w = .reject c) : Inv (raiseFault c w s) where
  reloadOfLevel := hs.reloadOfLevel
  countInRange := hs.countInRange
  ipInTrace := hs.ipInTrace
  faultAtIp r hr := by
    cases hr
    exact ⟨hw, hd⟩

/-- Settles O41: a service step leaves IP, an operation word is in the trace, so IP + 1 is within it, and
a fault records the word at IP. -/
theorem stepKeepsInvariant : Obligations.StepKeepsInvariant := by
  intro s t hs h
  have hi := takeTurn_keeps_inv hs
  obtain ⟨hf, ⟨i, hv, rfl⟩ | ⟨w, i, hw, hv, rfl⟩ | ⟨w, c, hw, hd, rfl⟩⟩ := step_next_completed h
  · exact completed_keeps_inv hi hf (by rw [completed_ip_of_service hv]; exact hi.ipInTrace)
  · exact completed_keeps_inv hi hf (by rw [completed_ip_of_word hv]; exact ip_lt_of_fetch hw)
  · exact raiseFault_keeps_inv hi hw hd

/-- Settles O42: a service step leaves IP and HLOG, an operation word moves IP by one and adds at most
one pair, and a fault moves neither. -/
theorem stepKeepsTraceAndExtendsLog : Obligations.StepKeepsTraceAndExtendsLog := by
  intro s t h
  rw [← takeTurn_trace s, ← takeTurn_params s, ← takeTurn_ip s, ← takeTurn_hlog s]
  obtain ⟨-, ⟨i, hv, rfl⟩ | ⟨w, i, -, hv, rfl⟩ | ⟨w, c, -, -, rfl⟩⟩ := step_next_completed h
  · have hlog := completed_hlog_of_not_read (s := takeTurn s) (not_read_of_service hv)
    exact ⟨completed_trace, completed_params, .inl (completed_ip_of_service hv), .inl hlog,
      fun _ => hlog⟩
  · have hip := completed_ip_of_word (s := takeTurn s) hv
    refine ⟨completed_trace, completed_params, .inr hip, ?_, fun heq => ?_⟩
    · cases hr : isRead i with
      | false => exact .inl (completed_hlog_of_not_read hr)
      | true => exact .inr (completed_hlog_of_read hr)
    · omega
  · exact ⟨rfl, rfl, .inl rfl, .inl rfl, fun _ => rfl⟩

/-- RESET's fields are R37's table, wherever IP stands (R104). -/
theorem resetTable_resetFields (s : State) (n : Nat) :
    ResetTable { resetFields s with ip := n } where
  position := rfl
  direction := rfl
  speedLevel := rfl
  rollover := rfl
  mscnt := rfl
  pending := ⟨rfl, rfl, rfl, rfl⟩
  enables := ⟨rfl, rfl, rfl, rfl, rfl⟩
  tcnt := rfl
  treload := rfl
  levels := ⟨rfl, rfl⟩
  led := rfl

/-- RESET would change nothing in the initial state. -/
theorem resetTable_reset : ResetTable State.reset := resetTable_resetFields State.reset 0

/-- No pending flag, no request (R120). -/
theorem arbitrate_of_resetTable (h : ResetTable s) : arbitrate s = none := by
  obtain ⟨hms, htim, hbtnl, hbtnr⟩ := h.pending
  refine (arbitrate_eq_none_iff s).mpr fun v => ?_
  cases v <;> simp [request, hms, htim, hbtnl, hbtnr]

/-- Settles O1: RESET runs in every state without a fault, and what it leaves holds the table, so it
requests nothing. -/
theorem resetTableAtStartAndAfterReset : Obligations.ResetTableAtStartAndAfterReset := by
  refine ⟨⟨resetTable_reset, rfl, rfl, rfl⟩, by decide, fun s hf => ?_, fun s r hf => ?_⟩
  · have ht := resetTable_resetFields s (s.ip + 1)
    exact ⟨_, whenRunning_of_none hf, ht, rfl, rfl, hf, arbitrate_of_resetTable ht, rfl, rfl, rfl⟩
  · exact whenRunning_of_some hf

/-- Settles O40: the reset table gives R36 (c) and (d), and nothing is loaded or faulted. -/
theorem invariantHoldsAtReset : Obligations.InvariantHoldsAtReset where
  reloadOfLevel := resetTable_reset.treload
  countInRange := Nat.zero_le _
  ipInTrace := Nat.zero_le _
  faultAtIp _ hr := by cases hr

end Sys2Proof.Safety
end

section
/-! Who writes each field (R20): one lemma per field names the writers; every other operation leaves the
field as it is. -/

namespace Sys2Proof.Safety

open Sys2Proof.Machine

variable {i : Instr} {s : State}

theorem position_writers (h : (completed i s).position ≠ s.position) :
    i = .svcTim ∨ i = .svcBtnl ∨ i = .svcBtnr ∨ i = .reset := by
  cases i with
  | svcTim | svcBtnl | svcBtnr | reset => simp
  | _ => exact (h rfl).elim

theorem direction_writers (h : (completed i s).direction ≠ s.direction) :
    i = .svcBtnl ∨ i = .svcBtnr ∨ i = .reset := by
  cases i with
  | svcBtnl | svcBtnr | reset => simp
  | _ => exact (h rfl).elim

theorem speedLevel_writers (h : (completed i s).speedLevel ≠ s.speedLevel) :
    (∃ d, i = .wrSpeed d) ∨ i = .reset := by
  cases i with
  | wrSpeed | reset => simp
  | _ => exact (h rfl).elim

/-- WR STATUS and RESET write ROLLOVER too, and never set it (R156, R104). -/
theorem rollover_setters (h : (completed i s).rollover = true ∧ s.rollover = false) :
    i = .svcTim ∨ i = .svcBtnl ∨ i = .svcBtnr := by
  obtain ⟨ht, hs⟩ := h
  cases i with
  | svcTim | svcBtnl | svcBtnr => simp
  | wrStatus d => cases ht.symm.trans (clearRollover_keeps_clear (clearOperand d) hs)
  | reset => cases ht
  | _ => cases ht.symm.trans hs

/-- The handlers write ROLLOVER too, and never clear it (R123). -/
theorem rollover_clearers (h : (completed i s).rollover = false ∧ s.rollover = true) :
    (∃ d, i = .wrStatus d) ∨ i = .reset := by
  obtain ⟨ht, hs⟩ := h
  cases i with
  | wrStatus | reset => simp
  | svcTim => cases ht.symm.trans (advance_keeps_rollover hs)
  | svcBtnl =>
    cases ht.symm.trans (turnTo_keeps_rollover .left (s := { s with btnlPend := false }) hs)
  | svcBtnr =>
    cases ht.symm.trans (turnTo_keeps_rollover .right (s := { s with btnrPend := false }) hs)
  | _ => cases ht.symm.trans hs

theorem mscnt_writers (h : (completed i s).mscnt ≠ s.mscnt) : i = .svcMs ∨ i = .reset := by
  cases i with
  | svcMs | reset => simp
  | _ => exact (h rfl).elim

theorem msPend_writers (h : (completed i s).msPend ≠ s.msPend) :
    i = .mstick ∨ i = .svcMs ∨ i = .reset := by
  cases i with
  | mstick | svcMs | reset => simp
  | _ => exact (h rfl).elim

theorem timPend_writers (h : (completed i s).timPend ≠ s.timPend) :
    i = .tclk ∨ i = .svcTim ∨ i = .svcBtnl ∨ i = .svcBtnr ∨ i = .reset := by
  cases i with
  | tclk | svcTim | svcBtnl | svcBtnr | reset => simp
  | _ => exact (h rfl).elim

theorem btnlPend_writers (h : (completed i s).btnlPend ≠ s.btnlPend) :
    (∃ d, i = .pinl d) ∨ i = .svcBtnl ∨ i = .reset := by
  cases i with
  | pinl | svcBtnl | reset => simp
  | _ => exact (h rfl).elim

theorem btnrPend_writers (h : (completed i s).btnrPend ≠ s.btnrPend) :
    (∃ d, i = .pinr d) ∨ i = .svcBtnr ∨ i = .reset := by
  cases i with
  | pinr | svcBtnr | reset => simp
  | _ => exact (h rfl).elim

theorem enables_writers (h : (completed i s).msEn ≠ s.msEn ∨ (completed i s).timIe ≠ s.timIe ∨
    (completed i s).timCen ≠ s.timCen ∨ (completed i s).btnlIe ≠ s.btnlIe ∨
    (completed i s).btnrIe ≠ s.btnrIe) : (∃ d, i = .wrCtrl d) ∨ i = .reset := by
  cases i with
  | wrCtrl | reset => simp
  | _ => obtain h | h | h | h | h := h <;> exact (h rfl).elim

theorem tcnt_writers (h : (completed i s).tcnt ≠ s.tcnt) :
    i = .tclk ∨ (∃ d, i = .wrSpeed d) ∨ i = .reset := by
  cases i with
  | tclk | wrSpeed | reset => simp
  | _ => exact (h rfl).elim

theorem treload_writers (h : (completed i s).treload ≠ s.treload) :
    (∃ d, i = .wrSpeed d) ∨ i = .reset := by
  cases i with
  | wrSpeed | reset => simp
  | _ => exact (h rfl).elim

theorem lvlL_writers (h : (completed i s).lvlL ≠ s.lvlL) : (∃ d, i = .pinl d) ∨ i = .reset := by
  cases i with
  | pinl | reset => simp
  | _ => exact (h rfl).elim

theorem lvlR_writers (h : (completed i s).lvlR ≠ s.lvlR) : (∃ d, i = .pinr d) ∨ i = .reset := by
  cases i with
  | pinr | reset => simp
  | _ => exact (h rfl).elim

theorem led_writers (h : (completed i s).led ≠ s.led) :
    (∃ d, i = .wrLedset d) ∨ (∃ d, i = .wrLedclr d) ∨ i = .reset := by
  cases i with
  | wrLedset | wrLedclr | reset => simp
  | _ => exact (h rfl).elim

theorem hlog_writers (h : (completed i s).hlog ≠ s.hlog) : isRead i = true := by
  by_contra hr
  exact h (completed_hlog_of_not_read (by simpa using hr))

theorem ip_writers (h : (completed i s).ip ≠ s.ip) : isService i = false := by
  by_contra hv
  exact h (completed_ip_of_service (by simpa using hv))

/-- Settles O43: an operation that runs is one of its fields' writers, and one whose data byte breaks R72
changes FAULT alone. -/
theorem fieldsChangeOnlyByTheirWriters : Obligations.FieldsChangeOnlyByTheirWriters := by
  intro i s t h
  obtain ⟨-, rfl | ⟨hw, w, rfl⟩⟩ := exec_next h
  · exact ⟨position_writers, direction_writers, speedLevel_writers, rollover_setters,
      rollover_clearers, mscnt_writers, msPend_writers, timPend_writers, btnlPend_writers,
      btnrPend_writers, enables_writers, tcnt_writers, treload_writers, lvlL_writers, lvlR_writers,
      led_writers, hlog_writers, ip_writers, fun hf => (hf completed_fault).elim⟩
  · simp +contextual [hw]

end Sys2Proof.Safety
end

section
/-! The lines the LED image drives (R30, R31). -/

namespace Sys2Proof.Safety

open Sys2Proof.Machine

theorem lineHigh_eq_true_iff (s : State) (line : Nat) :
    lineHigh s line = true ↔ ∃ p : BitVec 4, lineOf s p = line ∧ lit s p = true := by
  simp only [lineHigh, List.any_eq_true, List.mem_finRange, true_and, Bool.and_eq_true, beq_iff_eq]
  exact ⟨fun ⟨p, hp⟩ => ⟨.ofFin p, hp⟩, fun ⟨p, hp⟩ => ⟨p.toFin, hp⟩⟩

/-- No other position drives a position's line, as the lines are distinct (R6). -/
theorem lineHigh_lineOf (s : State) (p : BitVec 4) : lineHigh s (lineOf s p) = lit s p := by
  rw [Bool.eq_iff_iff, lineHigh_eq_true_iff]
  constructor
  · rintro ⟨q, hq, hlit⟩
    rwa [← lineOf_injective hq]
  · exact fun hlit => ⟨p, rfl, hlit⟩

/-- Settles O46: the lines are distinct, so each follows its own position's LED bit. -/
theorem linesFollowTheLedImage : Obligations.LinesFollowTheLedImage := by
  refine fun s => ⟨fun _ _ => lineOf_injective, lineHigh_lineOf s, fun line hline => ?_⟩
  by_contra h
  obtain ⟨p, hp, -⟩ := (lineHigh_eq_true_iff s line).mp (by simpa using h)
  exact hline p hp

end Sys2Proof.Safety
end

section
/-! Host accesses: when they run, what they leave, and what they leave when repeated at once (R55, R150
to R152). -/

namespace Sys2Proof.Safety

open Sys2Proof.Machine

variable {i : Instr} {s t : State}

theorem read_wellFormed (h : isRead i = true) : WellFormed i = true := by
  cases i with
  | rdPos | rdDir | rdStatus | rdSpeed | rdCtrl | rdMscnt | rdTcnt | rdTreload | rdLed | rdSnap
  | rdPins => rfl
  | _ => cases h

/-- A host access that answers a next state was not held (R150). -/
theorem hostMayRun_of_exec_next (hi : isRead i = true ∨ isWrite i = true)
    (h : exec i s = .next t) : HostMayRun s := by
  cases i with
  | rdPos | rdDir | rdStatus | rdSpeed | rdCtrl | rdMscnt | rdTcnt | rdTreload | rdLed | rdSnap
  | rdPins =>
    obtain ⟨hf, ha, -⟩ := readStep_next h
    exact ⟨hf, ha⟩
  | wrStatus | wrSpeed | wrCtrl | wrLedset | wrLedclr =>
    obtain ⟨hf, ha, -⟩ := writeStep_next h
    exact ⟨hf, ha⟩
  | _ => obtain hi | hi := hi <;> cases hi

theorem readStep_of_hostMayRun {r : HostReg} {v : RegVal} (hs : HostMayRun s) :
    readStep r v s = .next (consume (hostReturn r.addr v s)) :=
  whenHostMayRun_of_free hs.noFault hs.noRequest

theorem writeStep_of_hostMayRun {r : HostReg} {d : Byte} {f : State → State} (hs : HostMayRun s)
    (hd : writeDataOk r d = true) : writeStep r d f s = .next (consume (f s)) := by
  rw [writeStep, whenHostMayRun_of_free hs.noFault hs.noRequest, if_pos hd]

/-- A legal host access that is not held runs to its end (R151, R152). -/
theorem exec_of_hostMayRun (hi : isRead i = true ∨ isWrite i = true) (hw : WellFormed i = true)
    (hs : HostMayRun s) : exec i s = .next (completed i s) := by
  cases i with
  | rdPos | rdDir | rdStatus | rdSpeed | rdCtrl | rdMscnt | rdTcnt | rdTreload | rdLed | rdSnap
  | rdPins => exact readStep_of_hostMayRun hs
  | wrStatus d => exact writeStep_of_hostMayRun hs ((writeDataOk_status d).trans hw)
  | wrSpeed d => exact writeStep_of_hostMayRun hs ((writeDataOk_speed d).trans hw)
  | wrCtrl d => exact writeStep_of_hostMayRun hs ((writeDataOk_ctrl d).trans hw)
  | wrLedset d => exact writeStep_of_hostMayRun hs ((writeDataOk_ledset d).trans hw)
  | wrLedclr d => exact writeStep_of_hostMayRun hs ((writeDataOk_ledclr d).trans hw)
  | _ => obtain hi | hi := hi <;> cases hi

/-! ## Accesses repeated at once -/

/-- A read writes HLOG and IP, which no read's value depends on. -/
theorem completed_read_repeats (h : isRead i = true) (s : State) :
    ∃ p, completed i s = consume { s with hlog := s.hlog ++ [p] } ∧
      completed i (completed i s) =
        consume { completed i s with hlog := (completed i s).hlog ++ [p] } := by
  cases i with
  | rdPos | rdDir | rdStatus | rdSpeed | rdCtrl | rdMscnt | rdTcnt | rdTreload | rdLed | rdSnap
  | rdPins => exact ⟨_, rfl, rfl⟩
  | _ => cases h

theorem clearRollover_idem (c : Bool) (s : State) :
    clearRollover c (clearRollover c s) = clearRollover c s := by
  cases c <;> rfl

theorem setLed_idem (p : BitVec 4) (s : State) : setLed p (setLed p s) = setLed p s := by
  simp [setLed, BitVec.or_assoc]

theorem clearLed_idem (p : BitVec 4) (s : State) : clearLed p (clearLed p s) = clearLed p s := by
  simp [clearLed, BitVec.and_assoc]

/-- Every write's effect is idempotent and does not touch IP. -/
theorem completed_write_repeats (h : isWrite i = true) (s : State) :
    completed i (completed i s) = consume (completed i s) := by
  cases i with
  | wrStatus d => exact congrArg (consume ∘ consume) (clearRollover_idem (clearOperand d) s)
  | wrSpeed | wrCtrl => rfl
  | wrLedset d => exact congrArg (consume ∘ consume) (setLed_idem (positionOperand d) s)
  | wrLedclr d => exact congrArg (consume ∘ consume) (clearLed_idem (positionOperand d) s)
  | _ => cases h

/-- Settles O22: what an access leaves is free to run it again, and running it again leaves the same pair
or the same fields. -/
theorem hostAccessesAreIdempotent : Obligations.HostAccessesAreIdempotent := by
  refine ⟨fun i s t hr h => ?_, fun i s t hi hw h ht => ?_⟩
  · have hs := hostMayRun_of_exec_next (.inl hr) h
    have hw := read_wellFormed hr
    obtain rfl := exec_next_of_wellFormed hw h
    obtain ⟨p, hfirst, hagain⟩ := completed_read_repeats hr s
    have hfree : HostMayRun (completed i s) := by
      rw [hfirst]
      exact ⟨hs.noFault, hs.noRequest⟩
    exact ⟨p, hfirst, (exec_of_hostMayRun (.inl hr) hw hfree).trans (congrArg _ hagain)⟩
  · have hs := hostMayRun_of_exec_next (.inr hi) h
    obtain rfl := exec_next_of_wellFormed hw h
    have hfree : HostMayRun (completed i s) := ⟨completed_fault.trans hs.noFault, ht⟩
    exact (exec_of_hostMayRun (.inr hi) hw hfree).trans
      (congrArg _ (completed_write_repeats hi s))

end Sys2Proof.Safety
end

section
/-! The decoder and the encoder are inverse to each other: what each form's decoding answers on the words
of the form, and which word each answer comes from (R71 to R76). -/

namespace Sys2Proof.Safety

open Sys2Proof.Machine

variable {i j : Instr} {a : HostAddr} {d : Byte} {r : HostReg} {w : Word}

/-! ## The forms accept their own words -/

theorem decodePin_of_dataOk (h : pinDataOk d = true) : decodePin i 0 d = .instr i :=
  if_pos ⟨rfl, by simpa [pinDataOk] using h⟩

theorem decodeRead_of_readForm (h : readForm r = some i) : decodeRead r.addr 0 = .instr i := by
  simp [decodeRead, h]

theorem decodeWrite_of_writeForm (h : writeForm d r = some i) (hd : writeDataOk r d = true) :
    decodeWrite r.addr d = .instr i := by
  have hd : d &&& r.reservedData = 0 := by simpa [writeDataOk] using hd
  simp [decodeWrite, h, hd]

theorem decodeWord_readWord (h : readForm r = some i) : decodeWord (readWord r) = .instr i := by
  simpa [decodeWord, readWord] using decodeRead_of_readForm h

theorem decodeWord_writeWord (h : writeForm d r = some i) (hd : writeDataOk r d = true) :
    decodeWord (writeWord r d) = .instr i := by
  simpa [decodeWord, writeWord] using decodeWrite_of_writeForm h hd

theorem decodeWord_pinWord_left (h : pinDataOk d = true) :
    decodeWord (pinWord 0x3 d) = .instr (.pinl d) := by
  simpa [decodeWord, pinWord] using decodePin_of_dataOk h

theorem decodeWord_pinWord_right (h : pinDataOk d = true) :
    decodeWord (pinWord 0x4 d) = .instr (.pinr d) := by
  simpa [decodeWord, pinWord] using decodePin_of_dataOk h

/-- Settles O47: the word of an operation with an operand is one of its form, which the form accepts
because the data byte keeps R72; every other operation has a single code. -/
theorem decodeOfEncodeIsTheOperation : Obligations.DecodeOfEncodeIsTheOperation := by
  intro i hi
  cases i with
  | mstick | tclk | reset | rdPos | rdDir | rdStatus | rdSpeed | rdCtrl | rdMscnt | rdTcnt | rdTreload
  | rdLed | rdSnap | rdPins | svcMs | svcTim | svcBtnl | svcBtnr => decide
  | pinl d => exact decodeWord_pinWord_left ((pinDataOk_pinl d).trans hi)
  | pinr d => exact decodeWord_pinWord_right ((pinDataOk_pinr d).trans hi)
  | wrStatus d => exact decodeWord_writeWord rfl ((writeDataOk_status d).trans hi)
  | wrSpeed d => exact decodeWord_writeWord rfl ((writeDataOk_speed d).trans hi)
  | wrCtrl d => exact decodeWord_writeWord rfl ((writeDataOk_ctrl d).trans hi)
  | wrLedset d => exact decodeWord_writeWord rfl ((writeDataOk_ledset d).trans hi)
  | wrLedclr d => exact decodeWord_writeWord rfl ((writeDataOk_ledclr d).trans hi)

/-! ## An answer comes from its own word -/

theorem decodeEvent_eq_instr (h : decodeEvent i a d = .instr j) : j = i ∧ a = 0 ∧ d = 0 := by
  unfold decodeEvent at h
  split_ifs at h with h0
  cases h
  exact ⟨rfl, h0⟩

theorem decodePin_eq_instr (h : decodePin i a d = .instr j) : j = i ∧ a = 0 := by
  unfold decodePin at h
  split_ifs at h with h0
  cases h
  exact ⟨rfl, h0.1⟩

/-- Every address that names a register is the register's own (R38). -/
theorem addr_of_ofAddr (h : HostReg.ofAddr a = some r) : r.addr = a := by
  cases r <;> revert a <;> decide

theorem encode_of_readForm (h : readForm r = some i) : encode i = .word (readWord r) := by
  cases r <;> cases h <;> rfl

theorem encode_of_writeForm (h : writeForm d r = some i) : encode i = .word (writeWord r d) := by
  cases r <;> cases h <;> rfl

theorem encode_of_decodeRead (h : decodeRead a d = .instr i) :
    encode i = .word (makeWord 0x5 a d) := by
  unfold decodeRead at h
  split at h
  · cases h
  next r hr =>
    split at h
    · cases h
    next k hk =>
      split_ifs at h with hd
      cases h
      rw [encode_of_readForm hk, readWord, addr_of_ofAddr hr, hd]

theorem encode_of_decodeWrite (h : decodeWrite a d = .instr i) :
    encode i = .word (makeWord 0x6 a d) := by
  unfold decodeWrite at h
  split at h
  · cases h
  next r hr =>
    split at h
    · cases h
    next k hk =>
      split_ifs at h
      cases h
      rw [encode_of_writeForm hk, writeWord, addr_of_ofAddr hr]

theorem encode_of_decodeEvent {op : BitVec 4} (he : encode i = .word (makeWord op 0 0))
    (h : decodeEvent i a d = .instr j) : encode j = .word (makeWord op a d) := by
  obtain ⟨rfl, rfl, rfl⟩ := decodeEvent_eq_instr h
  exact he

theorem encode_of_decodePin {op : BitVec 4} (he : encode i = .word (makeWord op 0 d))
    (h : decodePin i a d = .instr j) : encode j = .word (makeWord op a d) := by
  obtain ⟨rfl, rfl⟩ := decodePin_eq_instr h
  exact he

/-- A word that decodes is the word of the operation it decodes to (R76, R78). -/
theorem encode_of_decodeWord (h : decodeWord w = .instr i) : encode i = .word w := by
  rw [← makeWord_fields w]
  unfold decodeWord at h
  dsimp only at h
  split_ifs at h with h1 h2 h3 h4 h5 h6 h7
  · rw [h1]; exact encode_of_decodeEvent rfl h
  · rw [h2]; exact encode_of_decodeEvent rfl h
  · rw [h3]; exact encode_of_decodePin rfl h
  · rw [h4]; exact encode_of_decodePin rfl h
  · rw [h5]; exact encode_of_decodeRead h
  · rw [h6]; exact encode_of_decodeWrite h
  · rw [h7]; exact encode_of_decodeEvent rfl h

theorem encode_decodeVector (v : BitVec 2) : encode (decodeVector v) = .vector v := by
  revert v; decide

theorem decodeVector_wellFormed (v : BitVec 2) : WellFormed (decodeVector v) = true := by
  revert v; decide

/-- Settles O48: a word's operation has the word's own fields, and the four vector numbers are the
four service steps. -/
theorem encodeOfDecodeIsTheCode : Obligations.EncodeOfDecodeIsTheCode := by
  intro c i h
  cases c with
  | word w => exact ⟨encode_of_decodeWord h, (wordOp_of_decodeWord h).wellFormed⟩
  | vector v =>
    cases h
    exact ⟨encode_decodeVector v, decodeVector_wellFormed v⟩

end Sys2Proof.Safety
end

section
/-! The opcode map (R76) against the decoder, and the fault of a word that does not decode (R77). -/

namespace Sys2Proof.Safety

open Sys2Proof.Machine

variable {i : Instr} {a : HostAddr} {d : Byte} {r : HostReg} {w : Word} {c : FaultCode}

/-! ## Rows by fields -/

theorem makeWord_and (op op' : BitVec 4) (a a' : HostAddr) (d d' : Byte) :
    makeWord op a d &&& makeWord op' a' d' = makeWord (op &&& op') (a &&& a') (d &&& d') :=
  BitVec.and_append.trans (congrArg (· ++ (d &&& d')) BitVec.and_append)

theorem makeWord_inj {op op' : BitVec 4} {a a' : HostAddr} {d d' : Byte} :
    makeWord op a d = makeWord op' a' d' ↔ op = op' ∧ a = a' ∧ d = d' := by
  refine ⟨fun h => ?_, by rintro ⟨rfl, rfl, rfl⟩; rfl⟩
  exact ⟨by simpa using congrArg opField h, by simpa using congrArg addrField h,
    by simpa using congrArg dataField h⟩

/-- A row that fixes OP and A and has the data bits `unused` 0 (R72). -/
def formRow (op : BitVec 4) (a : HostAddr) (unused : Byte) : MapRow :=
  ⟨makeWord op a 0, makeWord 0xF 0xF unused⟩

theorem and_formRow_mask_eq_iff {op : BitVec 4} {unused : Byte} :
    w &&& (formRow op a unused).mask = (formRow op a unused).pattern ↔
      opField w = op ∧ addrField w = a ∧ dataField w &&& unused = 0 := by
  have hones (x : BitVec 4) : x &&& 0xF = x := BitVec.and_allOnes
  conv_lhs => rw [← makeWord_fields w, formRow, makeWord_and, makeWord_inj, hones, hones]

/-- The rows of R76: the events, the pin events, the readable and the writable registers. -/
theorem opcodeMap_forms : ∀ row ∈ opcodeMap,
    (∃ op ∈ [0x1, 0x2, 0x7], row = formRow op 0 0xFF) ∨
    (∃ op ∈ [0x3, 0x4], row = formRow op 0 pinReservedData) ∨
    (∃ r ∈ HostReg.all, (readForm r).isSome = true ∧ row = formRow 0x5 r.addr 0xFF) ∨
    (∃ r ∈ HostReg.all, (writeForm 0 r).isSome = true ∧ row = formRow 0x6 r.addr r.reservedData) := by
  decide

/-! ## The words of a row decode -/

theorem decodes_of_eventRow {op : BitVec 4} (hop : op ∈ [0x1#4, 0x2, 0x7]) :
    ∃ i, decodeWord (makeWord op 0 0) = .instr i := by
  simp only [List.mem_cons, List.not_mem_nil, or_false] at hop
  obtain rfl | rfl | rfl := hop
  · exact ⟨.mstick, by decide⟩
  · exact ⟨.tclk, by decide⟩
  · exact ⟨.reset, by decide⟩

theorem decodes_of_pinRow {op : BitVec 4} (hop : op ∈ [0x3#4, 0x4]) (hd : pinDataOk d = true) :
    ∃ i, decodeWord (pinWord op d) = .instr i := by
  simp only [List.mem_cons, List.not_mem_nil, or_false] at hop
  obtain rfl | rfl := hop
  · exact ⟨_, decodeWord_pinWord_left hd⟩
  · exact ⟨_, decodeWord_pinWord_right hd⟩

theorem decodes_of_readable (hr : (readForm r).isSome = true) :
    ∃ i, decodeWord (readWord r) = .instr i := by
  obtain ⟨i, hi⟩ := Option.isSome_iff_exists.mp hr
  exact ⟨i, decodeWord_readWord hi⟩

theorem decodes_of_writable (hr : (writeForm 0 r).isSome = true) (hd : writeDataOk r d = true) :
    ∃ i, decodeWord (writeWord r d) = .instr i := by
  have hr : (writeForm d r).isSome = true := by cases r <;> exact hr
  obtain ⟨i, hi⟩ := Option.isSome_iff_exists.mp hr
  exact ⟨i, decodeWord_writeWord hi hd⟩

theorem decodes_of_row {row : MapRow} (hrow : row ∈ opcodeMap)
    (h : w &&& row.mask = row.pattern) : ∃ i, decodeWord w = .instr i := by
  rw [← makeWord_fields w]
  obtain ⟨op, hop, rfl⟩ | ⟨op, hop, rfl⟩ | ⟨r, -, hr, rfl⟩ | ⟨r, -, hr, rfl⟩ :=
    opcodeMap_forms row hrow <;>
  obtain ⟨hw, ha, hd⟩ := and_formRow_mask_eq_iff.mp h <;> rw [hw, ha]
  · rw [show dataField w = 0 from BitVec.and_allOnes.symm.trans hd]
    exact decodes_of_eventRow hop
  · exact decodes_of_pinRow hop (beq_iff_eq.mpr hd)
  · rw [show dataField w = 0 from BitVec.and_allOnes.symm.trans hd]
    exact decodes_of_readable hr
  · exact decodes_of_writable hr (beq_iff_eq.mpr hd)

/-! ## A word that decodes belongs to a row -/

theorem inOwnRow_of_wellFormed (h : WellFormed i = true) : Laws.TableRow.inOwnRow i = true := by
  cases i with
  | pinl d => exact Laws.TableRow.pinl d h
  | pinr d => exact Laws.TableRow.pinr d h
  | wrStatus d => exact Laws.TableRow.wrStatus d h
  | wrSpeed d => exact Laws.TableRow.wrSpeed d h
  | wrCtrl d => exact Laws.TableRow.wrCtrl d h
  | wrLedset d => exact Laws.TableRow.wrLedset d h
  | wrLedclr d => exact Laws.TableRow.wrLedclr d h
  | _ => decide

theorem row_of_decodeWord (h : decodeWord w = .instr i) :
    ∃ row ∈ opcodeMap, w &&& row.mask = row.pattern := by
  have hrow := inOwnRow_of_wellFormed (wordOp_of_decodeWord h).wellFormed
  rw [Laws.TableRow.inOwnRow, encode_of_decodeWord h] at hrow
  cases hm : i.mapRow with
  | none => simp [hm] at hrow
  | some row =>
    simp only [hm, Bool.and_eq_true, List.contains_iff_mem, MapRow.holds, beq_iff_eq] at hrow
    exact ⟨row, hrow⟩

/-- Any two rows differ in a bit that both fix (R76). -/
theorem opcodeMap_disjoint : ∀ r ∈ opcodeMap, ∀ q ∈ opcodeMap,
    r.pattern &&& q.mask = q.pattern &&& r.mask → r = q := by
  decide

/-- Settles O49: the rows are the decoder's forms, and a word in two rows would have both rows' fixed
bits. -/
theorem decodingAcceptsExactlyTheOpcodeMap : Obligations.DecodingAcceptsExactlyTheOpcodeMap := by
  refine ⟨fun w => ⟨fun ⟨_, h⟩ => row_of_decodeWord h, fun ⟨_, hrow, h⟩ => decodes_of_row hrow h⟩,
    fun w r q hr hq hwr hwq => opcodeMap_disjoint r hr q hq ?_⟩
  rw [← hwr, ← hwq, BitVec.and_assoc, BitVec.and_assoc, BitVec.and_comm r.mask]

/-! ## The first failing check (R77) -/

/-- R77's checks in their order, for a word that fails one, by the numbers OP and A. -/
def firstFailingCheck (op a : Nat) : FaultCode :=
  if op = 0 ∨ 8 ≤ op then .illegalOpcode
  else if (op = 1 ∨ op = 2 ∨ op = 3 ∨ op = 4 ∨ op = 7) ∧ a ≠ 0 then .reservedField
  else if 13 ≤ a then .reservedAddress
  else if op = 6 ∧ (a = 0 ∨ a = 1 ∨ a = 5 ∨ a = 6 ∨ a = 7 ∨ a = 8 ∨ a = 11 ∨ a = 12) then
    .readOnlyWrite
  else if op = 5 ∧ (a = 9 ∨ a = 10) then .writeOnlyRead
  else .reservedField

theorem firstFailingCheck_event {op : Nat} (hop : op = 1 ∨ op = 2 ∨ op = 3 ∨ op = 4 ∨ op = 7)
    (n : Nat) : firstFailingCheck op n = .reservedField := by
  rw [firstFailingCheck, if_neg (by omega)]
  by_cases hn : n = 0
  · obtain rfl | rfl | rfl | rfl | rfl := hop <;> simp [hn]
  · exact if_pos ⟨hop, hn⟩

theorem firstFailingCheck_illegal {op : Nat} (hop : op = 0 ∨ 8 ≤ op) (n : Nat) :
    firstFailingCheck op n = .illegalOpcode := if_pos hop

theorem firstFailingCheck_read (r : HostReg) : firstFailingCheck 5 r.addr.toNat =
    if (readForm r).isSome then .reservedField else .writeOnlyRead := by
  cases r <;> decide

theorem firstFailingCheck_write (d : Byte) (r : HostReg) : firstFailingCheck 6 r.addr.toNat =
    if (writeForm d r).isSome then .reservedField else .readOnlyWrite := by
  cases r <;> rfl

theorem firstFailingCheck_reservedAddress : ∀ a : HostAddr, HostReg.ofAddr a = none →
    firstFailingCheck 5 a.toNat = .reservedAddress ∧
      firstFailingCheck 6 a.toNat = .reservedAddress := by
  decide

theorem decodeEvent_eq_reject (h : decodeEvent i a d = .reject c) : c = .reservedField := by
  unfold decodeEvent at h
  split_ifs at h
  cases h
  rfl

theorem decodePin_eq_reject (h : decodePin i a d = .reject c) : c = .reservedField := by
  unfold decodePin at h
  split_ifs at h
  cases h
  rfl

theorem decodeRead_eq_reject (h : decodeRead a d = .reject c) : c = firstFailingCheck 5 a.toNat := by
  unfold decodeRead at h
  split at h
  next ha =>
    cases h
    exact (firstFailingCheck_reservedAddress a ha).1.symm
  next r ha =>
    rw [← addr_of_ofAddr ha, firstFailingCheck_read]
    split at h
    next hr => cases h; simp [hr]
    next i hr =>
      split_ifs at h
      cases h
      simp [hr]

theorem decodeWrite_eq_reject (h : decodeWrite a d = .reject c) :
    c = firstFailingCheck 6 a.toNat := by
  unfold decodeWrite at h
  split at h
  next ha =>
    cases h
    exact (firstFailingCheck_reservedAddress a ha).2.symm
  next r ha =>
    rw [← addr_of_ofAddr ha, firstFailingCheck_write d]
    split at h
    next hr => cases h; simp [hr]
    next i hr =>
      split_ifs at h
      cases h
      simp [hr]

theorem decodeWord_eq_reject (h : decodeWord w = .reject c) :
    c = firstFailingCheck (opField w).toNat (addrField w).toNat := by
  unfold decodeWord at h
  dsimp only at h
  split_ifs at h with h1 h2 h3 h4 h5 h6 h7
  · rw [decodeEvent_eq_reject h, h1, firstFailingCheck_event (by decide)]
  · rw [decodeEvent_eq_reject h, h2, firstFailingCheck_event (by decide)]
  · rw [decodePin_eq_reject h, h3, firstFailingCheck_event (by decide)]
  · rw [decodePin_eq_reject h, h4, firstFailingCheck_event (by decide)]
  · rw [decodeRead_eq_reject h, h5]; rfl
  · rw [decodeWrite_eq_reject h, h6]; rfl
  · rw [decodeEvent_eq_reject h, h7, firstFailingCheck_event (by decide)]
  · cases h
    rw [firstFailingCheck_illegal]
    bv_omega

theorem opField_toNat (w : Word) : (opField w).toNat = w.toNat / 0x1000 := by
  have := w.isLt
  simp only [opField, BitVec.extractLsb'_toNat, Nat.shiftRight_eq_div_pow]
  omega

theorem addrField_toNat (w : Word) : (addrField w).toNat = w.toNat / 0x100 % 16 := by
  simp only [addrField, BitVec.extractLsb'_toNat, Nat.shiftRight_eq_div_pow]

/-- Settles O50: a word of no row does not decode, and each form's rejection is the first check of R77
that its fields fail. -/
theorem rejectionsFollowTheCheckOrder : Obligations.RejectionsFollowTheCheckOrder := by
  intro w hw op a
  show decodeWord w = .reject (firstFailingCheck (w.toNat / 0x1000) (w.toNat / 0x100 % 16))
  rw [← opField_toNat, ← addrField_toNat]
  cases h : decodeWord w with
  | instr i => exact absurd (row_of_decodeWord h) hw
  | reject c => rw [decodeWord_eq_reject h]

/-! ## A stored trace (R81) and sample words -/

theorem readTrace_storeTrace (ws : List Word) : readTrace (storeTrace ws) = some ws := by
  induction ws with
  | nil => rfl
  | cons w ws ih =>
    have hcons : storeTrace (w :: ws) = bytesOfWord w ++ storeTrace ws := rfl
    rw [hcons, readTrace_bytesOfWord_append, ih, Option.map_some]

theorem bytesOfWord_toNat (w : Word) :
    (bytesOfWord w).map BitVec.toNat = [w.toNat % 256, w.toNat / 256] := by
  have hhigh : w.toNat / 256 % 256 = w.toNat / 256 := Nat.mod_eq_of_lt (by omega)
  simp [bytesOfWord, Nat.shiftRight_eq_div_pow, hhigh]

theorem readTrace_eq_none_iff (bs : List Byte) : readTrace bs = none ↔ bs.length % 2 = 1 := by
  induction bs using readTrace.induct with
  | case1 => simp [readTrace]
  | case2 b => simp [readTrace]
  | case3 lo hi rest ih =>
    rw [readTrace, Option.map_eq_none_iff, ih]
    simp only [List.length_cons]
    omega

/-- Settles O52: word by word for the stored trace, two bytes at a time for the length. -/
theorem storedTraceReadsBack : Obligations.StoredTraceReadsBack :=
  ⟨readTrace_storeTrace, bytesOfWord_toNat, readTrace_eq_none_iff⟩

/-- Settles O51: each word is evaluated. -/
theorem sampleWordsDecode : Obligations.SampleWordsDecode := by
  unfold Obligations.SampleWordsDecode
  decide

end Sys2Proof.Safety
end

section
/-! Placing an operation as the next step (log 10): what `withFetchWord` prepares is what `step` takes,
and it runs. -/

namespace Sys2Proof.Safety

open Sys2Proof.Machine

variable {i : Instr} {s : State} {v : IrqVector} {w : Word}

/-! ## When an operation runs -/

theorem pinStep_of_dataOk {d : Byte} {f : State → State} (hf : s.fault = none)
    (hd : pinDataOk d = true) : pinStep w d f s = .next (consume (f s)) := by
  rw [pinStep, whenRunning_of_none hf, if_pos hd]

/-- A legal event runs in every state without a fault (R105). -/
theorem exec_event_runs (hi : WordOp i) (hr : isRead i = false) (hw : isWrite i = false)
    (hf : s.fault = none) : ∃ u, exec i s = .next u := by
  cases i with
  | mstick | tclk | reset => exact ⟨_, whenRunning_of_none hf⟩
  | pinl d => exact ⟨_, pinStep_of_dataOk hf ((pinDataOk_pinl d).trans hi.wellFormed)⟩
  | pinr d => exact ⟨_, pinStep_of_dataOk hf ((pinDataOk_pinr d).trans hi.wellFormed)⟩
  | rdPos | rdDir | rdStatus | rdSpeed | rdCtrl | rdMscnt | rdTcnt | rdTreload | rdLed | rdSnap
  | rdPins => cases hr
  | wrStatus | wrSpeed | wrCtrl | wrLedset | wrLedclr => cases hw
  | svcMs | svcTim | svcBtnl | svcBtnr => cases hi.notService

/-- The arbiter's service step runs (R122). -/
theorem exec_service_runs (hf : s.fault = none) (ha : arbitrate s = some v) :
    ∃ u, exec (serviceInstr v) s = .next u := by
  cases v with
  | ms | tim | btnl | btnr => exact ⟨_, whenSelected_of_chosen hf ha⟩

/-- The host words that decode are those of the host's reads and writes (R71, R150). -/
theorem isHostWord_of_encode (h : encode i = .word w) :
    isHostWord w = (isRead i || isWrite i) := by
  cases i with
  | svcMs | svcTim | svcBtnl | svcBtnr => cases h
  | _ => cases h; simp [isHostWord, pinWord, readWord, writeWord, isRead, isWrite]

/-- The operation of a word that is not held runs (R105, R150). -/
theorem exec_decoded_runs (hd : decodeWord w = .instr i) (hf : s.fault = none)
    (hheld : isHostWord w = true → arbitrate s = none) : ∃ u, exec i s = .next u := by
  have hi := wordOp_of_decodeWord hd
  rw [isHostWord_of_encode (encode_of_decodeWord hd), Bool.or_eq_true] at hheld
  by_cases hrw : isRead i = true ∨ isWrite i = true
  · exact ⟨_, exec_of_hostMayRun hrw hi.wellFormed ⟨hf, hheld hrw⟩⟩
  · simp only [not_or, Bool.not_eq_true] at hrw
    exact exec_event_runs hi hrw.1 hrw.2 hf

theorem arbitrate_takeTurn (s : State) : arbitrate (takeTurn s) = arbitrate s := by
  rw [takeTurn_eq]; rfl

/-- The operation of the chosen word runs: a chosen word is not held. -/
theorem step_runs_word (hf : s.fault = none) (ha : nextAction s = .word w)
    (hd : decodeWord w = .instr i) :
    ∃ u, step s = exec i (takeTurn s) ∧ exec i (takeTurn s) = .next u := by
  obtain ⟨u, hu⟩ := exec_decoded_runs hd ((takeTurn_fault s).trans hf) fun hw =>
    (arbitrate_takeTurn s).trans ((fetch_of_nextAction_word ha).2 hw)
  exact ⟨u, step_of_word hf ha hd, hu⟩

theorem step_runs_service (hf : s.fault = none) (ha : nextAction s = .service v) :
    ∃ u, step s = exec (serviceInstr v) (takeTurn s) ∧
      exec (serviceInstr v) (takeTurn s) = .next u := by
  obtain ⟨u, hu⟩ := exec_service_runs ((takeTurn_fault s).trans hf)
    ((arbitrate_takeTurn s).trans (arbitrate_of_nextAction_service ha))
  exact ⟨u, step_of_service hf ha, hu⟩

/-! ## Turns -/

theorem giveTurn_eq (t : Turn) (s : State) :
    giveTurn t s = { s with schedule := (giveTurn t s).schedule } := by
  unfold giveTurn
  split_ifs <;> rfl

@[simp] theorem giveTurn_fault (t : Turn) (s : State) : (giveTurn t s).fault = s.fault := by
  rw [giveTurn_eq]

@[simp] theorem arbitrate_giveTurn (t : Turn) (s : State) :
    arbitrate (giveTurn t s) = arbitrate s := by
  rw [giveTurn_eq]; rfl

@[simp] theorem fetch_giveTurn (t : Turn) (s : State) : fetch (giveTurn t s) = fetch s := by
  rw [giveTurn_eq]; rfl

theorem giveTurn_schedule_of_choicePoint (t : Turn) (h : choicePoint s = true) :
    (giveTurn t s).schedule = t :: s.schedule := by
  rw [giveTurn, if_pos h]

theorem choicePoint_of_request (ha : arbitrate s = some v) (hw : fetch s = some w)
    (hh : isHostWord w = false) : choicePoint s = true := by
  simp [choicePoint, ha, hw, hh]

theorem nextAction_of_no_request (ha : arbitrate s = none) (hw : fetch s = some w) :
    nextAction s = .word w := by
  simp only [nextAction, ha, hw]

theorem nextAction_giveTurn_word (hw : fetch s = some w) (hh : isHostWord w = false) :
    nextAction (giveTurn .word s) = .word w := by
  cases ha : arbitrate s with
  | none => exact nextAction_of_no_request (by simp [ha]) (by simp [hw])
  | some v =>
    have hs := giveTurn_schedule_of_choicePoint .word (choicePoint_of_request ha hw hh)
    simp [nextAction, ha, hw, hh, hs]

theorem nextAction_giveTurn_service (ha : arbitrate s = some v) :
    nextAction (giveTurn .service s) = .service v := by
  cases hw : fetch s with
  | none => simp [nextAction, ha, hw]
  | some w =>
    cases hh : isHostWord w with
    | true => simp [nextAction, ha, hw, hh]
    | false =>
      have hs := giveTurn_schedule_of_choicePoint .service (choicePoint_of_request ha hw hh)
      simp [nextAction, ha, hw, hh, hs]

/-! ## Requests and the placed word -/

theorem arbitrate_dropRequests (s : State) : arbitrate (dropRequests s) = none := by
  refine (arbitrate_eq_none_iff _).mpr fun v => ?_
  cases v <;> simp [request, dropRequests]

theorem request_requestOnly (u v : IrqVector) (s : State) :
    request (requestOnly v s) u = decide (u = v) := by
  cases u <;> cases v <;> simp [request, requestOnly, dropRequests]

/-- The one request left is the arbiter's choice (R121). -/
theorem arbitrate_requestOnly (v : IrqVector) (s : State) :
    arbitrate (requestOnly v s) = some v := by
  cases v <;> simp [arbitrate, request_requestOnly]

theorem arbitrate_selectVector (v : IrqVector) (s : State) :
    arbitrate (selectVector v s) = some v := by
  unfold selectVector
  split_ifs with h
  · exact h
  · exact arbitrate_requestOnly v s

@[simp] theorem selectVector_fault (v : IrqVector) (s : State) :
    (selectVector v s).fault = s.fault := by
  unfold selectVector
  split_ifs
  · rfl
  · cases v <;> rfl

/-- The words before the placed one fill the trace up to IP. -/
theorem fetch_placeWord (w : Word) (s : State) : fetch (placeWord w s) = some w := by
  have hlen : (s.trace.take s.ip ++ List.replicate (s.ip - s.trace.length) 0).length = s.ip := by
    simp only [List.length_append, List.length_take, List.length_replicate]
    omega
  simp only [fetch, placeWord]
  rw [List.getElem?_append_right hlen.le, hlen, Nat.sub_self]
  rfl

/-! ## The prepared state -/

theorem step_withVector (v : IrqVector) (s : State) :
    ∃ u, step (withVector v s) = exec (serviceInstr v) (takeTurn (withVector v s)) ∧
      exec (serviceInstr v) (takeTurn (withVector v s)) = .next u :=
  step_runs_service (by simp [withVector]) (nextAction_giveTurn_service (arbitrate_selectVector v _))

theorem withWord_fault (w : Word) (s : State) : (withWord w s).fault = none := by
  unfold withWord
  dsimp only
  split_ifs
  · rfl
  · rfl
  · rw [giveTurn_fault]; rfl

theorem nextAction_withWord (w : Word) (s : State) : nextAction (withWord w s) = .word w := by
  have hw := fetch_placeWord w { s with fault := none }
  unfold withWord
  dsimp only
  split_ifs with hh ha
  · exact nextAction_of_no_request (arbitrate_dropRequests _) hw
  · exact nextAction_of_no_request (by simpa using ha) hw
  · exact nextAction_giveTurn_word hw (by simpa using hh)

/-! ## The opcode table's bits -/

theorem wordOfBytes_ofNat (n : Nat) :
    wordOfBytes (BitVec.ofNat 8 n) (BitVec.ofNat 8 (n / 256)) = BitVec.ofNat 16 n := by
  have hlo : BitVec.ofNat 8 n = (BitVec.ofNat 16 n).extractLsb' 0 8 := by
    apply BitVec.eq_of_toNat_eq
    simp
  have hhi : BitVec.ofNat 8 (n / 256) = (BitVec.ofNat 16 n).extractLsb' 8 8 := by
    apply BitVec.eq_of_toNat_eq
    simp only [BitVec.extractLsb'_toNat, BitVec.toNat_ofNat, Nat.shiftRight_eq_div_pow]
    omega
  rw [hlo, hhi, wordOfBytes_bytes]

theorem decodeTableWord_eq_some {nbits n : Nat} (h : decodeTableWord nbits n = some i) :
    (nbits ≤ 8 ∧ i = decodeVector (BitVec.ofNat 2 n)) ∨
    (¬ nbits ≤ 8 ∧ decodeWord (BitVec.ofNat 16 n) = .instr i) := by
  unfold decodeTableWord at h
  rw [decodeBytes, wordOfBytes_ofNat] at h
  split_ifs at h with hn _ hlt
  · exact .inl ⟨hn, (Option.some.inj h).symm⟩
  · split at h
    next hd =>
      cases h
      exact .inr ⟨hn, (ByteDecoded.decoded.inj hd).1⟩
    · cases h

theorem decodeVector_eq (v : BitVec 2) : decodeVector v = serviceInstr (vectorOf v) := by
  revert v; decide

/-- Settles O35: a vector number's row selects its vector, a longer row's word is not held, and either
gets the turn. -/
theorem placedOperationRunsNext : Obligations.PlacedOperationRunsNext := by
  intro s nbits n i h
  obtain ⟨hn, rfl⟩ | ⟨hn, hd⟩ := decodeTableWord_eq_some h
  · rw [State.withFetchWord, if_pos hn, decodeVector_eq]
    obtain ⟨u, hu⟩ := step_withVector (vectorOf (BitVec.ofNat 2 n)) s
    exact ⟨_, u, rfl, hu⟩
  · rw [State.withFetchWord, if_neg hn]
    obtain ⟨u, hu⟩ := step_runs_word (withWord_fault _ s) (nextAction_withWord _ s) hd
    exact ⟨_, u, rfl, hu⟩

end Sys2Proof.Safety
end

section
/-! The assembler's words (R79, R80): each operation's word, or that it is refused, from its operands. -/

namespace Sys2Proof.Safety

open Sys2Proof.Machine

variable {i : Instr} {o : AsmOp} {ref : RegRef} {w : Word} {ws : List Word} {c : FaultCode}
  {a : HostAddr} {n : Nat}

/-! ## Legal words -/

theorem legalWord_of_instr (h : decodeWord w = .instr i) : legalWord w = some w := by
  simp only [legalWord, h]

theorem legalWord_of_reject (h : decodeWord w = .reject c) : legalWord w = none := by
  simp only [legalWord, h]

theorem decodes_of_legalWord {w' : Word} (h : legalWord w' = some w) :
    ∃ i, decodeWord w = .instr i := by
  cases hd : decodeWord w' with
  | instr i =>
    rw [legalWord_of_instr hd] at h
    cases h
    exact ⟨i, hd⟩
  | reject c =>
    rw [legalWord_of_reject hd] at h
    cases h

/-- Every word the assembler gives decodes (R79). -/
theorem decodes_of_assembleOp (h : assembleOp o = some w) : ∃ i, decodeWord w = .instr i := by
  cases o with
  | mstick | tclk | reset =>
    rw [assembleOp] at h
    exact decodes_of_legalWord h
  | pinl n | pinr n =>
    rw [assembleOp] at h
    split_ifs at h
    exact decodes_of_legalWord h
  | rd r =>
    obtain ⟨a, -, ha⟩ := Option.bind_eq_some_iff.mp h
    exact decodes_of_legalWord ha
  | wr r n =>
    rw [assembleOp] at h
    split_ifs at h
    obtain ⟨a, -, ha⟩ := Option.bind_eq_some_iff.mp h
    exact decodes_of_legalWord ha

/-! ## The word of each operation -/

theorem readWord_eq_ofNat : ∀ a : HostAddr,
    0x5000#16 ||| a.setWidth 16 <<< 8 = BitVec.ofNat 16 (0x5000 + 256 * a.toNat) := by
  decide

/-- D takes the low byte, which the address leaves 0 (R70). -/
theorem writeWord_eq_ofNat (a : HostAddr) (hn : n < 256) :
    0x6000#16 ||| a.setWidth 16 <<< 8 ||| BitVec.ofNat 16 n =
      BitVec.ofNat 16 (0x6000 + 256 * a.toNat + n) := by
  have hhigh : ∀ a : HostAddr,
      (0x6000#16 ||| a.setWidth 16 <<< 8).toNat = 2 ^ 8 * (0x60 + a.toNat) := by decide
  apply BitVec.eq_of_toNat_eq
  rw [BitVec.toNat_or, hhigh, BitVec.toNat_ofNat, Nat.mod_eq_of_lt (by omega),
    ← Nat.two_pow_add_eq_or_of_lt hn, BitVec.toNat_ofNat]
  omega

theorem assembleOp_pinl (n : Nat) :
    assembleOp (.pinl n) = if n < 2 then some (BitVec.ofNat 16 (0x3000 + n)) else none := by
  have h : ∀ n < 2, legalWord (0x3000#16 ||| BitVec.ofNat 16 n) =
      some (BitVec.ofNat 16 (0x3000 + n)) := by decide
  exact ite_congr rfl (h n) fun _ => rfl

theorem assembleOp_pinr (n : Nat) :
    assembleOp (.pinr n) = if n < 2 then some (BitVec.ofNat 16 (0x4000 + n)) else none := by
  have h : ∀ n < 2, legalWord (0x4000#16 ||| BitVec.ofNat 16 n) =
      some (BitVec.ofNat 16 (0x4000 + n)) := by decide
  exact ite_congr rfl (h n) fun _ => rfl

theorem assembleOp_rd (h : ref.addr = some a) :
    assembleOp (.rd ref) = legalWord (BitVec.ofNat 16 (0x5000 + 256 * a.toNat)) := by
  rw [assembleOp, h, Option.bind_some, readWord_eq_ofNat]

theorem assembleOp_wr (h : ref.addr = some a) (hn : n < 256) :
    assembleOp (.wr ref n) = legalWord (BitVec.ofNat 16 (0x6000 + 256 * a.toNat + n)) := by
  rw [assembleOp, if_pos hn, h, Option.bind_some, writeWord_eq_ofNat a hn]

theorem assembleOp_rd_of_badReg (h : ref.addr = none) : assembleOp (.rd ref) = none := by
  rw [assembleOp, h, Option.bind_none]

theorem assembleOp_wr_of_badReg (h : ref.addr = none) (n : Nat) :
    assembleOp (.wr ref n) = none := by
  rw [assembleOp, h, Option.bind_none, ite_self]

theorem assembleOp_wr_of_badImm (ref : RegRef) (hn : 256 ≤ n) : assembleOp (.wr ref n) = none :=
  if_neg hn.not_gt

/-! ## Several operations -/

theorem assembleOps_singleton (o : AsmOp) : assembleOps [o] = (assembleOp o).map ([·]) := by
  cases h : assembleOp o <;> simp [assembleOps, h]

theorem assembleOps_singleton_of_some (h : assembleOp o = some w) : assembleOps [o] = some [w] := by
  rw [assembleOps_singleton, h, Option.map_some]

theorem assembleOps_replicate (h : assembleOp o = some w) (n : Nat) :
    assembleOps (List.replicate n o) = some (List.replicate n w) := by
  induction n with
  | zero => rfl
  | succ n ih => simp [List.replicate_succ, assembleOps, h, ih]

theorem decodes_of_assembleOps {os : List AsmOp} (h : assembleOps os = some ws) :
    ∀ w ∈ ws, ∃ i, decodeWord w = .instr i := by
  induction os generalizing ws with
  | nil =>
    cases h
    simp
  | cons o os ih =>
    obtain ⟨w, hw, hrest⟩ := Option.bind_eq_some_iff.mp h
    obtain ⟨rest, hws, rfl⟩ := Option.map_eq_some_iff.mp hrest
    exact List.forall_mem_cons.mpr ⟨decodes_of_assembleOp hw, ih hws⟩

/-! ## Pseudo-operations (R80) -/

/-- Legal writes to a register have its words, counted from its word with D = 0 (R152). -/
theorem assembleOps_wr_name {r : HostReg} {base bound : Nat}
    (hbase : 0x6000 + 256 * r.addr.toNat = base) (hbound : bound ≤ 256)
    (hlegal : ∀ n < bound,
      legalWord (BitVec.ofNat 16 (base + n)) = some (BitVec.ofNat 16 (base + n))) (hn : n < bound) :
    assembleOps [.wr (.name r) n] = some [BitVec.ofNat 16 (base + n)] := by
  subst hbase
  exact assembleOps_singleton_of_some
    ((assembleOp_wr rfl (hn.trans_le hbound)).trans (hlegal n hn))

/-- Settles O54: the rows without operand are evaluated, the repetitions go by induction on their
count, and the writes are words of their register. -/
theorem pseudoOperationsExpand : Obligations.PseudoOperationsExpand := by
  exact ⟨by decide, by decide, by decide, by decide, by decide, by decide, by decide,
    fun n => ⟨assembleOps_replicate (by decide) n, assembleOps_replicate (by decide) n⟩,
    fun p hp => ⟨assembleOps_wr_name (r := .ledset) rfl (by decide) (by decide) hp,
      assembleOps_wr_name (r := .ledclr) rfl (by decide) (by decide) hp⟩,
    fun l hl => assembleOps_wr_name (r := .speed) rfl (by decide) (by decide) hl⟩

end Sys2Proof.Safety
end

section
/-! The assembler's text (R79, log 12): the tokens of a line, the numbers and registers they write, and
the words of a line and of a text. -/

namespace Sys2Proof.Safety

open Sys2Proof.Machine

variable {ref : RegRef} {ws : List Word} {m r t line : List Char} {a n : Nat}
  {lines : List (List Char)}

/-! ## Tokens -/

/-- Text that is one token. -/
def OneToken (t : List Char) : Prop := PlainText t ∧ t ≠ []

theorem flushToken_reverse (h : t ≠ []) (rest : List (List Char)) :
    flushToken t.reverse rest = t :: rest := by
  cases hr : t.reverse with
  | nil => exact absurd (List.reverse_eq_nil_iff.mp hr) h
  | cons c cs =>
    show (c :: cs).reverse :: rest = t :: rest
    rw [← hr, List.reverse_reverse]

theorem tokens_blank (h : OneToken t) (rest : List Char) :
    tokens (t ++ ' ' :: rest) = t :: tokens rest := by
  rw [tokens, tokensFrom_plain h.1, List.append_nil]
  exact flushToken_reverse h.2 _

theorem tokens_comma (h : OneToken t) (rest : List Char) :
    tokens (t ++ ',' :: rest) = t :: [','] :: tokens rest := by
  rw [tokens, tokensFrom_plain h.1, List.append_nil]
  exact flushToken_reverse h.2 _

theorem tokens_leading_blank (rest : List Char) : tokens (' ' :: rest) = tokens rest := rfl

theorem tokens_end (h : OneToken t) : tokens t = [t] := tokensFrom_plain_end h.1 h.2

/-! ## Numbers -/

theorem digitValue_digitChar : ∀ v < 16, digitValue (Nat.digitChar v) = some v := by decide

theorem digitsFrom_append (base acc : Nat) (xs ys : List Char) :
    digitsFrom base acc (xs ++ ys) =
      (digitsFrom base acc xs).bind fun acc => digitsFrom base acc ys := by
  induction xs generalizing acc with
  | nil => rfl
  | cons x xs ih =>
    rw [List.cons_append, digitsFrom, digitsFrom]
    split
    · split_ifs
      · exact ih _
      · rfl
    · rfl

theorem digitsFrom_digitChar {base v : Nat} (hb : base ≤ 16) (hv : v < base) (acc : Nat) :
    digitsFrom base acc [Nat.digitChar v] = some (acc * base + v) := by
  simp [digitsFrom, digitValue_digitChar v (hv.trans_le hb), hv]

theorem digitsFrom_toDigits {base : Nat} (hb1 : 1 < base) (hb : base ≤ 16) (n : Nat) :
    digitsFrom base 0 (Nat.toDigits base n) = some n := by
  induction n using Nat.strong_induction_on with
  | _ n ih =>
    have hmod : n % base < base := Nat.mod_lt n (by omega)
    rw [Nat.toDigits_eq_if hb1]
    split_ifs with hn
    · simpa using digitsFrom_digitChar hb hn 0
    · rw [digitsFrom_append, ih (n / base) (Nat.div_lt_self (by omega) hb1), Option.bind_some,
        digitsFrom_digitChar hb hmod, Nat.div_add_mod']

/-- The digits of a number in a base are read back as the number. -/
theorem digits_toDigits {base : Nat} (hb1 : 1 < base) (hb : base ≤ 16) (n : Nat) :
    digits base (Nat.toDigits base n) = some n := by
  rw [← digitsFrom_toDigits hb1 hb n]
  cases h : Nat.toDigits base n with
  | nil => exact absurd h Nat.toDigits_ne_nil
  | cons c cs => rfl

/-- A decimal number is not taken for one of another base: neither `x` nor `b` is a decimal digit. -/
theorem parseNumber_of_decimal (h : digits 10 t = some n) : parseNumber t = some n := by
  unfold parseNumber
  split
  · simp [digits, digitsFrom, digitValue] at h
  · simp [digits, digitsFrom, digitValue] at h
  · exact h

theorem parseNumber_toDigits (n : Nat) :
    parseNumber (Nat.toDigits 10 n) = some n ∧
    parseNumber ("0x".toList ++ Nat.toDigits 16 n) = some n ∧
    parseNumber ("0b".toList ++ Nat.toDigits 2 n) = some n :=
  ⟨parseNumber_of_decimal (digits_toDigits (by decide) (by decide) n),
    digits_toDigits (by decide) (by decide) n, digits_toDigits (by decide) (by decide) n⟩

/-! ## Registers -/

/-- A register operand's text and the number it stands for: a name or a number (R79). -/
def RegText (r : List Char) (a : Nat) : Prop :=
  (∃ q : HostReg, r = regName q ∧ a = q.addr.toNat) ∨ parseNumber r = some a

theorem RegText.oneToken (h : RegText r a) : OneToken r := by
  obtain ⟨q, rfl, -⟩ | h := h
  · exact regName_plain q
  · exact parseNumber_plain h

/-- The operand is read as a reference to the address of its number, if that is an address. -/
theorem RegText.parseReg (h : RegText r a) : ∃ ref, parseReg r = some ref ∧
    ref.addr = if a < 16 then some (BitVec.ofNat 4 a) else none := by
  obtain ⟨q, rfl, rfl⟩ | h := h
  · exact ⟨_, parseReg_regName q, by simp [RegRef.addr, q.addr.isLt]⟩
  · exact ⟨_, parseReg_of_parseNumber h, rfl⟩

theorem assembleOp_rd_of_addr
    (h : ref.addr = if a < 16 then some (BitVec.ofNat 4 a) else none) :
    assembleOp (.rd ref) =
      if a < 16 then legalWord (BitVec.ofNat 16 (0x5000 + 256 * a)) else none := by
  split_ifs at h ⊢ with ha
  · rw [assembleOp_rd h, BitVec.toNat_ofNat, Nat.mod_eq_of_lt ha]
  · exact assembleOp_rd_of_badReg h

theorem assembleOp_wr_of_addr
    (h : ref.addr = if a < 16 then some (BitVec.ofNat 4 a) else none) (n : Nat) :
    assembleOp (.wr ref n) =
      if a < 16 ∧ n < 256 then legalWord (BitVec.ofNat 16 (0x6000 + 256 * a + n)) else none := by
  by_cases hn : n < 256
  · simp only [hn, and_true]
    split_ifs at h ⊢ with ha
    · rw [assembleOp_wr h hn, BitVec.toNat_ofNat, Nat.mod_eq_of_lt ha]
    · exact assembleOp_wr_of_badReg h n
  · simpa [hn] using assembleOp_wr_of_badImm ref (not_lt.mp hn)

/-! ## Lines -/

theorem assembleLine_rd (hr : RegText r a) :
    assembleLine ("RD ".toList ++ r) =
      (if a < 16 then legalWord (BitVec.ofNat 16 (0x5000 + 256 * a)) else none).map ([·]) := by
  obtain ⟨ref, hparse, haddr⟩ := hr.parseReg
  have htokens : tokens ("RD ".toList ++ r) = [['R', 'D'], r] := by
    rw [← tokens_end hr.oneToken]; rfl
  rw [assembleLine, htokens, parseTokens, if_pos rfl, hparse, Option.map_some, Option.bind_some,
    assembleOps_singleton, assembleOp_rd_of_addr haddr]

theorem assembleLine_wr (hr : RegText r a) (ht : parseNumber t = some n) :
    assembleLine ("WR ".toList ++ r ++ ", ".toList ++ t) =
      (if a < 16 ∧ n < 256 then legalWord (BitVec.ofNat 16 (0x6000 + 256 * a + n))
        else none).map ([·]) := by
  obtain ⟨ref, hparse, haddr⟩ := hr.parseReg
  have htokens : tokens ("WR ".toList ++ r ++ ", ".toList ++ t) = [['W', 'R'], r, [','], t] := by
    have hrest := tokens_comma hr.oneToken (' ' :: t)
    rw [tokens_leading_blank, tokens_end (parseNumber_plain ht)] at hrest
    rw [← hrest, List.append_assoc, List.append_assoc]
    rfl
  rw [assembleLine, htokens, parseTokens, if_pos ⟨rfl, rfl⟩, hparse, Option.bind_some, ht,
    Option.map_some, Option.bind_some, assembleOps_singleton, assembleOp_wr_of_addr haddr]

/-- The mnemonics that take one number (R79, R80). -/
def unaryMnemonics : List (List Char) :=
  [['P', 'I', 'N', 'L'], ['P', 'I', 'N', 'R'],
    ['T', 'I', 'C', 'K', 'S'], ['M', 'S', 'T', 'I', 'C', 'K', 'S'],
    ['L', 'E', 'D', 'O', 'N'], ['L', 'E', 'D', 'O', 'F', 'F'],
    ['S', 'E', 'T', 'S', 'P', 'E', 'E', 'D']]

theorem unaryMnemonics_oneToken : ∀ m ∈ unaryMnemonics, OneToken m ∧ m ≠ ['R', 'D'] := by
  simp [unaryMnemonics, OneToken, PlainText]

theorem assembleLine_unary (hm : m ∈ unaryMnemonics) (ht : parseNumber t = some n) :
    assembleLine (m ++ ' ' :: t) = (parseUnary m n).bind assembleOps := by
  obtain ⟨htoken, hrd⟩ := unaryMnemonics_oneToken m hm
  rw [assembleLine, tokens_blank htoken, tokens_end (parseNumber_plain ht), parseTokens,
    if_neg hrd, ht, Option.bind_some]

theorem assembleLine_pinl (ht : parseNumber t = some n) :
    assembleLine ("PINL ".toList ++ t) =
      if n < 2 then some [BitVec.ofNat 16 (0x3000 + n)] else none := by
  have hline : assembleLine ("PINL ".toList ++ t) = assembleOps [.pinl n] :=
    assembleLine_unary (m := ['P', 'I', 'N', 'L']) (by decide) ht
  rw [hline, assembleOps_singleton, assembleOp_pinl]
  split_ifs <;> rfl

theorem assembleLine_pinr (ht : parseNumber t = some n) :
    assembleLine ("PINR ".toList ++ t) =
      if n < 2 then some [BitVec.ofNat 16 (0x4000 + n)] else none := by
  have hline : assembleLine ("PINR ".toList ++ t) = assembleOps [.pinr n] :=
    assembleLine_unary (m := ['P', 'I', 'N', 'R']) (by decide) ht
  rw [hline, assembleOps_singleton, assembleOp_pinr]
  split_ifs <;> rfl

theorem assembleLine_pseudo (ht : parseNumber t = some n) :
    assembleLine ("TICKS ".toList ++ t) = assembleOps (expand (.ticks n)) ∧
    assembleLine ("MSTICKS ".toList ++ t) = assembleOps (expand (.msticks n)) ∧
    assembleLine ("LEDON ".toList ++ t) = assembleOps (expand (.ledon n)) ∧
    assembleLine ("LEDOFF ".toList ++ t) = assembleOps (expand (.ledoff n)) ∧
    assembleLine ("SETSPEED ".toList ++ t) = assembleOps (expand (.setspeed n)) :=
  ⟨assembleLine_unary (m := ['T', 'I', 'C', 'K', 'S']) (by decide) ht,
    assembleLine_unary (m := ['M', 'S', 'T', 'I', 'C', 'K', 'S']) (by decide) ht,
    assembleLine_unary (m := ['L', 'E', 'D', 'O', 'N']) (by decide) ht,
    assembleLine_unary (m := ['L', 'E', 'D', 'O', 'F', 'F']) (by decide) ht,
    assembleLine_unary (m := ['S', 'E', 'T', 'S', 'P', 'E', 'E', 'D']) (by decide) ht⟩

/-- A host line gives its word, and is refused where an operand is out of range or the word faults. -/
theorem assembleLine_rd_cases (hr : RegText r a) :
    (∀ i, a < 16 → decodeWord (BitVec.ofNat 16 (0x5000 + 256 * a)) = .instr i →
      assembleLine ("RD ".toList ++ r) = some [BitVec.ofNat 16 (0x5000 + 256 * a)]) ∧
    (∀ c, 16 ≤ a ∨ decodeWord (BitVec.ofNat 16 (0x5000 + 256 * a)) = .reject c →
      assembleLine ("RD ".toList ++ r) = none) := by
  rw [assembleLine_rd hr]
  refine ⟨fun i ha hd => by rw [if_pos ha, legalWord_of_instr hd, Option.map_some], fun c h => ?_⟩
  split_ifs with ha
  · rw [legalWord_of_reject (h.resolve_left ha.not_ge), Option.map_none]
  · rfl

theorem assembleLine_wr_cases (hr : RegText r a) (ht : parseNumber t = some n) :
    (∀ i, a < 16 → n < 256 → decodeWord (BitVec.ofNat 16 (0x6000 + 256 * a + n)) = .instr i →
      assembleLine ("WR ".toList ++ r ++ ", ".toList ++ t) =
        some [BitVec.ofNat 16 (0x6000 + 256 * a + n)]) ∧
    (∀ c, 16 ≤ a ∨ 256 ≤ n ∨
        decodeWord (BitVec.ofNat 16 (0x6000 + 256 * a + n)) = .reject c →
      assembleLine ("WR ".toList ++ r ++ ", ".toList ++ t) = none) := by
  rw [assembleLine_wr hr ht]
  refine ⟨fun i ha hn hd => by rw [if_pos ⟨ha, hn⟩, legalWord_of_instr hd, Option.map_some],
    fun c h => ?_⟩
  split_ifs with hlt
  · have hd := (h.resolve_left hlt.1.not_ge).resolve_left hlt.2.not_ge
    rw [legalWord_of_reject hd, Option.map_none]
  · rfl

theorem assembleLine_comment (line comment : List Char) :
    assembleLine (line ++ ';' :: comment) = assembleLine line := by
  rw [assembleLine, assembleLine, tokens, tokens, tokensFrom_comment]

theorem decodes_of_assembleLine (h : assembleLine line = some ws) :
    ∀ w ∈ ws, ∃ i, decodeWord w = .instr i := by
  obtain ⟨os, -, hos⟩ := Option.bind_eq_some_iff.mp h
  exact decodes_of_assembleOps hos

/-! ## Texts -/

/-- The numbering of lines starts where the text is read from. -/
theorem assembleFrom_refused {before after : List (List Char)} (k : Nat)
    (hbefore : ∀ l ∈ before, (assembleLine l).isSome = true) (hline : assembleLine line = none) :
    assembleFrom k (before ++ line :: after) = .refused (k + before.length) := by
  induction before generalizing k with
  | nil => simp [assembleFrom, hline]
  | cons l before ih =>
    obtain ⟨hl, hrest⟩ := List.forall_mem_cons.mp hbefore
    obtain ⟨ws, hws⟩ := Option.isSome_iff_exists.mp hl
    simp only [List.cons_append, assembleFrom, hws, ih (k + 1) hrest, List.length_cons]
    congr 1
    omega

theorem assembleFrom_words (f : List Char → List Word) (k : Nat)
    (h : ∀ l ∈ lines, assembleLine l = some (f l)) :
    assembleFrom k lines = .words (lines.flatMap f) := by
  induction lines generalizing k with
  | nil => rfl
  | cons l lines ih =>
    obtain ⟨hl, hrest⟩ := List.forall_mem_cons.mp h
    simp only [assembleFrom, hl, ih (k + 1) hrest, List.flatMap_cons]

theorem decodes_of_assembleFrom (k : Nat) (h : assembleFrom k lines = .words ws) :
    ∀ w ∈ ws, ∃ i, decodeWord w = .instr i := by
  induction lines generalizing k ws with
  | nil =>
    cases h
    simp
  | cons l lines ih =>
    rw [assembleFrom] at h
    split at h
    · cases h
    next first hfirst =>
      split at h
      next rest hrest =>
        cases h
        exact List.forall_mem_append.mpr ⟨decodes_of_assembleLine hfirst, ih (k + 1) hrest⟩
      · cases h

/-- Settles O53: the lines without operand are evaluated, the others are read token by token. -/
theorem assemblerGivesOnlyLegalWords : Obligations.AssemblerGivesOnlyLegalWords := by
  refine ⟨by decide, fun t n ht => ⟨assembleLine_pinl ht, assembleLine_pinr ht⟩, fun r a hr => ?_,
    fun n _ => parseNumber_toDigits n, assembleLine_comment, fun before after line hb hl => ?_,
    fun lines f => assembleFrom_words f 1, fun lines ws => decodes_of_assembleFrom 1,
    by decide, fun t n => assembleLine_pseudo⟩
  · obtain ⟨hword, hrefused⟩ := assembleLine_rd_cases hr
    exact ⟨hword, hrefused, fun t n ht => assembleLine_wr_cases hr ht⟩
  · rw [assemble, assembleFrom_refused 1 hb hl, Nat.add_comm]

end Sys2Proof.Safety
end

section
/-! The environment events (R100 to R103): what each leaves, and that no operation that decodes faults
(R106). -/

namespace Sys2Proof.Safety

open Sys2Proof.Machine

variable {s t : State} {d : Byte} {w : Word} {f : State → State}

/-! ## MSTICK -/

/-- An event is accepted whenever FAULT is none (R105). -/
theorem eventStep_of_running (hf : s.fault = none) : eventStep f s = .next (consume (f s)) :=
  whenRunning_of_none hf

theorem latch_occurs (pend enabled : Bool) :
    latch pend enabled true = if enabled = true then true else pend := by
  cases pend <;> cases enabled <;> rfl

/-- Settles O2: the tick's only effect is its latch. -/
theorem mstickLatchesWhenEnabled : Obligations.MstickLatchesWhenEnabled := by
  refine ⟨by decide, fun s hf => ?_⟩
  rw [← latch_occurs]
  exact eventStep_of_running hf

/-! ## TCLK -/

theorem atReload_iff (s : State) : atReload s = true ↔ s.tcnt.toNat = s.treload.toNat := by
  rw [atReload, beq_iff_eq, BitVec.toNat_inj]

theorem timerPulse_of_stopped (hc : s.timCen = false) : timerPulse s = s := by
  simp [timerPulse, hc]

theorem timerPulse_of_atReload (hc : s.timCen = true) (hr : s.tcnt.toNat = s.treload.toNat) :
    timerPulse s = { s with tcnt := 0, timPend := latch s.timPend s.timIe true } := by
  rw [timerPulse, if_pos hc, if_pos ((atReload_iff s).mpr hr)]

theorem timerPulse_of_not_atReload (hc : s.timCen = true) (hr : s.tcnt.toNat ≠ s.treload.toNat) :
    timerPulse s = { s with tcnt := s.tcnt + 1 } := by
  rw [timerPulse, if_pos hc, if_neg (mt (atReload_iff s).mp hr)]

theorem exec_tclk (hf : s.fault = none) : exec .tclk s = .next (consume (timerPulse s)) :=
  eventStep_of_running hf

theorem exec_tclk_of_atReload (hf : s.fault = none) (hc : s.timCen = true)
    (hr : s.tcnt.toNat = s.treload.toNat) :
    exec .tclk s = .next { s with
      tcnt := 0
      timPend := if s.timIe = true then true else s.timPend
      ip := s.ip + 1 } := by
  rw [exec_tclk hf, timerPulse_of_atReload hc hr, latch_occurs, consume]

theorem exec_tclk_of_not_atReload (hf : s.fault = none) (hc : s.timCen = true)
    (hr : s.tcnt.toNat ≠ s.treload.toNat) :
    exec .tclk s = .next { s with tcnt := s.tcnt + 1, ip := s.ip + 1 } := by
  rw [exec_tclk hf, timerPulse_of_not_atReload hc hr, consume]

/-- Settles O3: the three clauses are the three branches of a pulse. -/
theorem tclkCountsAndTicks : Obligations.TclkCountsAndTicks := by
  refine ⟨by decide, fun s hf => ⟨fun hc => ?_, exec_tclk_of_atReload hf, fun hc hr => ?_⟩⟩
  · rw [exec_tclk hf, timerPulse_of_stopped hc, consume]
  · have hcount : s.tcnt + 1 = BitVec.ofNat 32 ((s.tcnt.toNat + 1) % 2 ^ 32) := by bv_omega
    rw [exec_tclk_of_not_atReload hf hc hr, hcount]

/-! ## The tick period -/

theorem execAll_append_of_next {xs ys : List Instr} (h : execAll xs s = .next t) :
    execAll (xs ++ ys) s = execAll ys t := by
  induction xs generalizing s with
  | nil =>
    cases h
    rfl
  | cons x xs ih =>
    cases hx : exec x s with
    | next u =>
      simp only [List.cons_append, execAll, hx] at h ⊢
      exact ih h
    | fault r | refused r => simp [execAll, hx] at h

/-- One operation more, after `k` repetitions of it. -/
theorem execAll_replicate_succ {k : Nat} {i : Instr} (h : execAll (List.replicate k i) s = .next t) :
    execAll (List.replicate (k + 1) i) s = execAll [i] t := by
  rw [List.replicate_succ', execAll_append_of_next h]

theorem execAll_singleton {i : Instr} (h : exec i s = .next t) : execAll [i] s = .next t := by
  simp only [execAll, h]

/-- The state after `k` pulses that only count, from TCNT = 0: `execAll_tclk_counts`. -/
def counted (k : Nat) (s : State) : State := { s with tcnt := BitVec.ofNat 32 k, ip := s.ip + k }

theorem counted_zero (h0 : s.tcnt = 0#32) : counted 0 s = s := by
  rw [counted, ← h0, Nat.add_zero]

theorem counted_tcnt_toNat {k : Nat} (hk : k ≤ s.treload.toNat) : (counted k s).tcnt.toNat = k := by
  rw [counted, BitVec.toNat_ofNat, Nat.mod_eq_of_lt (hk.trans_lt s.treload.isLt)]

theorem exec_tclk_counted {k : Nat} (hf : s.fault = none) (hc : s.timCen = true)
    (hk : k < s.treload.toNat) : exec .tclk (counted k s) = .next (counted (k + 1) s) := by
  have hbelow : (counted k s).tcnt.toNat ≠ s.treload.toNat := by
    rw [counted_tcnt_toNat hk.le]
    exact hk.ne
  rw [exec_tclk_of_not_atReload (s := counted k s) hf hc hbelow, counted, counted, BitVec.ofNat_add]
  rfl

/-- From TCNT = 0 the first TRELOAD pulses only count: each finds the count below TRELOAD (R101). -/
theorem execAll_tclk_counts (hf : s.fault = none) (hc : s.timCen = true) (h0 : s.tcnt = 0#32)
    (k : Nat) (hk : k ≤ s.treload.toNat) :
    execAll (List.replicate k .tclk) s = .next (counted k s) := by
  induction k with
  | zero => rw [counted_zero h0]; rfl
  | succ k ih =>
    rw [execAll_replicate_succ (ih (Nat.le_of_succ_le hk))]
    exact execAll_singleton (exec_tclk_counted hf hc hk)

/-- Settles O4: TRELOAD pulses count up to TRELOAD, where the next one ticks and restarts the count. -/
theorem tickPeriodIsReloadPlusOnePulses : Obligations.TickPeriodIsReloadPlusOnePulses := by
  intro s hf hc h0
  have h0 : s.tcnt = 0#32 := BitVec.eq_of_toNat_eq h0
  have hcounts := execAll_tclk_counts hf hc h0
  have htick := exec_tclk_of_atReload (s := counted s.treload.toNat s) hf hc
    (counted_tcnt_toNat le_rfl)
  refine ⟨hcounts, ?_⟩
  rw [execAll_replicate_succ (hcounts _ le_rfl), execAll_singleton htick, h0]
  rfl

/-! ## PINL and PINR -/

theorem pinDataOk_of_lt (hd : d.toNat < 2) : pinDataOk d = true :=
  (pinDataOk_pinl d).trans (decide_eq_true hd)

theorem pinStep_of_badData (hf : s.fault = none) (hd : 2 ≤ d.toNat) :
    pinStep w d f s = .next (raiseFault .reservedField w s) := by
  have hbad : pinDataOk d = false := (pinDataOk_pinl d).trans (decide_eq_false (not_lt.mpr hd))
  rw [pinStep, whenRunning_of_none hf, hbad]
  rfl

theorem levelOperand_of_lt : ∀ d : Byte, d.toNat < 2 → levelOperand d = decide (d.toNat = 1) := by
  decide

/-- A pin sample latches on an enabled change from 1 to 0 (R102, R103). -/
theorem latch_fallingEdge (pend enabled held : Bool) (hd : d.toNat < 2) :
    latch pend enabled (fallingEdge held (levelOperand d)) =
      if held = true ∧ d.toNat = 0 ∧ enabled = true then true else pend := by
  have hlow : d.toNat = 0 ↔ ¬ d.toNat = 1 := by omega
  simp only [levelOperand_of_lt d hd, hlow]
  cases held <;> cases enabled <;> simp [latch, fallingEdge, Bool.or_comm]

theorem makeWord_toNat (op : BitVec 4) (a : HostAddr) (d : Byte) :
    (makeWord op a d).toNat = 0x1000 * op.toNat + 0x100 * a.toNat + d.toNat := by
  rw [makeWord, BitVec.toNat_append, ← Nat.shiftLeft_add_eq_or_of_lt d.isLt, BitVec.toNat_append,
    ← Nat.shiftLeft_add_eq_or_of_lt a.isLt, Nat.shiftLeft_eq, Nat.shiftLeft_eq]
  omega

theorem pinWord_eq_ofNat (op : BitVec 4) (d : Byte) :
    pinWord op d = BitVec.ofNat 16 (0x1000 * op.toNat + d.toNat) := by
  apply BitVec.eq_of_toNat_eq
  simp only [pinWord, makeWord_toNat, BitVec.ofNat_eq_ofNat, BitVec.toNat_ofNat]
  omega

/-- Settles O6: the sample is a latch on the falling edge and the new level; R72's bound on the data byte
decides between it and the fault. -/
theorem pinlLatchesOnFallingEdge : Obligations.PinlLatchesOnFallingEdge := by
  intro s d hf
  have hw : pinWord 0x3 d = BitVec.ofNat 16 (0x3000 + d.toNat) := pinWord_eq_ofNat 0x3 d
  rw [← hw]
  refine ⟨fun hd => decodeWord_pinWord_left (pinDataOk_of_lt hd), fun hd => ?_,
    pinStep_of_badData hf⟩
  rw [← latch_fallingEdge _ _ _ hd, ← levelOperand_of_lt d hd]
  exact pinStep_of_dataOk hf (pinDataOk_of_lt hd)

/-- Settles O7: as for the left pin, with the right button's fields. -/
theorem pinrLatchesOnFallingEdge : Obligations.PinrLatchesOnFallingEdge := by
  intro s d hf
  have hw : pinWord 0x4 d = BitVec.ofNat 16 (0x4000 + d.toNat) := pinWord_eq_ofNat 0x4 d
  rw [← hw]
  refine ⟨fun hd => decodeWord_pinWord_right (pinDataOk_of_lt hd), fun hd => ?_,
    pinStep_of_badData hf⟩
  rw [← latch_fallingEdge _ _ _ hd, ← levelOperand_of_lt d hd]
  exact pinStep_of_dataOk hf (pinDataOk_of_lt hd)

/-! ## No fault once decoded -/

/-- Settles O32: an operation that runs had no fault before, and one that keeps R72 leaves FAULT as it
was. -/
theorem decodedOperationsNeverFault : Obligations.DecodedOperationsNeverFault := by
  intro i s t hw h
  obtain ⟨hf, -⟩ := exec_next h
  rw [exec_next_of_wellFormed hw h, completed_fault, hf]

end Sys2Proof.Safety
end

section
/-! Arbitration (R120, R121) and the four handlers (R122 to R129): when a service step is enabled and what
it leaves. -/

namespace Sys2Proof.Safety

open Sys2Proof.Machine

variable {s t : State} {u v : IrqVector} {d : Direction}

/-! ## Arbitration -/

/-- No requesting source has a smaller number than the chosen one: it would have been asked first. -/
theorem number_le_of_arbitrate (h : arbitrate s = some v) (hu : request s u = true) :
    v.number.toNat ≤ u.number.toNat := by
  unfold arbitrate at h
  split_ifs at h with hms htim hbtnl hbtnr <;> cases h
  · exact Nat.zero_le _
  · cases u with
    | ms => exact absurd hu hms
    | _ => decide
  · cases u with
    | ms => exact absurd hu hms
    | tim => exact absurd hu htim
    | _ => decide
  · cases u with
    | ms => exact absurd hu hms
    | tim => exact absurd hu htim
    | btnl => exact absurd hu hbtnl
    | btnr => exact le_rfl

theorem number_injective (h : u.number.toNat = v.number.toNat) : u = v := by
  revert h; cases u <;> cases v <;> decide

/-- R121: the arbiter's choice is the requesting source of the smallest number. -/
theorem arbitrate_eq_some_iff : arbitrate s = some v ↔
    request s v = true ∧ ∀ u, request s u = true → v.number.toNat ≤ u.number.toNat := by
  refine ⟨fun h => ⟨request_of_arbitrate h, fun u => number_le_of_arbitrate h⟩, fun ⟨hv, hmin⟩ => ?_⟩
  cases ha : arbitrate s with
  | none => simp [(arbitrate_eq_none_iff s).mp ha v] at hv
  | some u =>
    have hle := number_le_of_arbitrate ha hv
    rw [number_injective (hle.antisymm (hmin u (request_of_arbitrate ha)))]

/-- Settles O9: the request bits are conjunctions, and the arbiter asks the sources in the order of their
numbers. -/
theorem arbiterServesSmallestRequestingVector : Obligations.ArbiterServesSmallestRequestingVector :=
  fun s => ⟨Bool.and_eq_true_iff, Bool.and_eq_true_iff, Bool.and_eq_true_iff, Bool.and_eq_true_iff,
    fun _ => arbitrate_eq_some_iff, arbitrate_eq_none_iff s⟩

/-- A source whose flag or enable is clear does not request (R120). -/
theorem request_eq_false {pend enabled : Bool} (h : ¬(pend = true ∧ enabled = true)) :
    (pend && enabled) = false :=
  eq_false_of_ne_true (mt Bool.and_eq_true_iff.mp h)

theorem arbitrate_eq_ms (h : request s .ms = true) : arbitrate s = some .ms := if_pos h

theorem arbitrate_eq_tim (hms : request s .ms = false) (h : request s .tim = true) :
    arbitrate s = some .tim := by
  simp [arbitrate, hms, h]

theorem arbitrate_eq_btnl (hms : request s .ms = false) (htim : request s .tim = false)
    (h : request s .btnl = true) : arbitrate s = some .btnl := by
  simp [arbitrate, hms, htim, h]

theorem arbitrate_eq_btnr (hms : request s .ms = false) (htim : request s .tim = false)
    (hbtnl : request s .btnl = false) (h : request s .btnr = true) : arbitrate s = some .btnr := by
  simp [arbitrate, hms, htim, hbtnl, h]

/-! ## When a service step is enabled -/

/-- A service step is its completed effect, when the arbiter chooses its vector (R122). -/
theorem exec_service (v : IrqVector) (s : State) :
    exec (serviceInstr v) s = whenSelected v s (.next (completed (serviceInstr v) s)) := by
  cases v with
  | ms | tim => rfl
  | btnl =>
    exact congrArg (whenSelected .btnl s <| .next ·) (turnTo_eq .left { s with btnlPend := false })
  | btnr =>
    exact congrArg (whenSelected .btnr s <| .next ·) (turnTo_eq .right { s with btnrPend := false })

theorem whenSelected_of_not_chosen {k : Result} (hf : s.fault = none) (ha : arbitrate s ≠ some v) :
    whenSelected v s k = .fault (.serviceNotSelected v) := by
  rw [whenSelected, whenRunning_of_none hf, if_neg ha]

/-- Settles O15: the arbiter's choice is a service step's own condition. -/
theorem unselectedServiceStops : Obligations.UnselectedServiceStops := by
  intro s v hf ha
  rw [exec_service]
  exact whenSelected_of_not_chosen hf ha

/-- What a service step that runs started from and leaves (R122). -/
theorem service_next (h : exec (serviceInstr v) s = .next t) :
    s.fault = none ∧ arbitrate s = some v ∧ t = completed (serviceInstr v) s := by
  rw [exec_service] at h
  obtain ⟨hf, ha, ht⟩ := whenSelected_next h
  exact ⟨hf, ha, by cases ht; rfl⟩

/-- Settles O16: the condition is the arbiter's, and no handler writes the named fields. -/
theorem serviceStepFrame : Obligations.ServiceStepFrame := by
  refine fun s v => ⟨⟨fun ⟨t, h⟩ => ?_, fun ⟨hf, ha⟩ => exec_service_runs hf ha⟩, fun t h => ?_⟩
  · obtain ⟨hf, ha, -⟩ := service_next h
    exact ⟨hf, ha⟩
  · obtain ⟨hf, -, rfl⟩ := service_next h
    rw [completed_fault]
    cases v with
    | ms | tim | btnl | btnr =>
      exact ⟨rfl, rfl, hf, rfl, rfl, rfl, rfl, rfl, rfl, rfl, rfl, rfl, rfl, rfl, rfl, rfl, rfl⟩

/-! ## SVC_MS and SVC_TIM -/

/-- Settles O10: vector 0 is asked first. -/
theorem svcMsCountsMilliseconds : Obligations.SvcMsCountsMilliseconds := by
  refine ⟨by decide, fun s hf hp he => ?_⟩
  have ha := arbitrate_eq_ms (Bool.and_eq_true_iff.mpr ⟨hp, he⟩)
  have hcount : s.mscnt + 1 = BitVec.ofNat 32 ((s.mscnt.toNat + 1) % 2 ^ 32) := by bv_omega
  rw [← hcount]
  exact whenSelected_of_chosen hf ha

theorem nextPosition_left : ∀ p : BitVec 4,
    nextPosition .left p = BitVec.ofNat 4 ((p.toNat + 1) % 16) := by decide

theorem nextPosition_right : ∀ p : BitVec 4,
    nextPosition .right p = BitVec.ofNat 4 ((p.toNat + 15) % 16) := by decide

theorem wraps_left : ∀ p : BitVec 4, wraps .left p = decide (p.toNat = 15) := by decide

theorem wraps_right : ∀ p : BitVec 4, wraps .right p = decide (p.toNat = 0) := by decide

theorem advance_of_left (h : s.direction = .left) : advance s = { s with
    timPend := false
    position := BitVec.ofNat 4 ((s.position.toNat + 1) % 16)
    rollover := s.rollover || decide (s.position.toNat = 15) } := by
  rw [advance, rolloverAfterAdvance, h, nextPosition_left, wraps_left]

theorem advance_of_right (h : s.direction = .right) : advance s = { s with
    timPend := false
    position := BitVec.ofNat 4 ((s.position.toNat + 15) % 16)
    rollover := s.rollover || decide (s.position.toNat = 0) } := by
  rw [advance, rolloverAfterAdvance, h, nextPosition_right, wraps_right]

/-- Settles O11: the two directions are the two branches of a step and of its wrap. -/
theorem advanceMovesOneStep : Obligations.AdvanceMovesOneStep :=
  fun _ => ⟨advance_of_left, advance_of_right⟩

/-- Settles O12: the tick is the arbiter's choice when the millisecond does not request. -/
theorem svcTimAdvances : Obligations.SvcTimAdvances := by
  refine ⟨by decide, fun s hf hp he hms => ?_⟩
  have ha := arbitrate_eq_tim (request_eq_false hms) (Bool.and_eq_true_iff.mpr ⟨hp, he⟩)
  have hx : exec .svcTim s = .next (advance s) := whenSelected_of_chosen hf ha
  rw [hx]
  exact ⟨fun hd => congrArg _ (advance_of_left hd), fun hd => congrArg _ (advance_of_right hd)⟩

/-! ## A button's turn -/

theorem turnTo_of_same (h : s.direction = d) : turnTo d s = s := if_pos h

theorem turnTo_of_other (h : s.direction ≠ d) :
    turnTo d s = advance { s with direction := d } := if_neg h

/-- Settles O13: the left button is the arbiter's choice when neither clock requests, and its turn is
an ADVANCE to the left from RIGHT alone. -/
theorem svcBtnlTurnsLeftWithForcedTick : Obligations.SvcBtnlTurnsLeftWithForcedTick := by
  refine ⟨by decide, fun s hf hp he hms htim => ?_⟩
  have ha := arbitrate_eq_btnl (request_eq_false hms) (request_eq_false htim)
    (Bool.and_eq_true_iff.mpr ⟨hp, he⟩)
  have hx : exec .svcBtnl s = .next (turnTo .left { s with btnlPend := false }) :=
    whenSelected_of_chosen hf ha
  rw [hx]
  refine ⟨fun hd => congrArg _ (turnTo_of_same hd), fun hd => congrArg _ ?_⟩
  rw [turnTo_of_other (by simp [hd]), advance_of_left rfl]

/-- Settles O14: as for the left button, when the left button does not request either. -/
theorem svcBtnrTurnsRightWithForcedTick : Obligations.SvcBtnrTurnsRightWithForcedTick := by
  refine ⟨by decide, fun s hf hp he hms htim hbtnl => ?_⟩
  have ha := arbitrate_eq_btnr (request_eq_false hms) (request_eq_false htim)
    (request_eq_false hbtnl) (Bool.and_eq_true_iff.mpr ⟨hp, he⟩)
  have hx : exec .svcBtnr s = .next (turnTo .right { s with btnrPend := false }) :=
    whenSelected_of_chosen hf ha
  rw [hx]
  refine ⟨fun hd => congrArg _ (turnTo_of_same hd), fun hd => congrArg _ ?_⟩
  rw [turnTo_of_other (by simp [hd]), advance_of_right rfl]

@[simp] theorem turnTo_direction (d : Direction) (s : State) : (turnTo d s).direction = d := by
  unfold turnTo
  split_ifs with h
  · exact h
  · rfl

/-- DIRECTION changes only with a step in the new direction, which absorbs the pending tick (R129). -/
theorem turnTo_forces_tick (d : Direction) (s : State) :
    ((turnTo d s).direction ≠ s.direction → (turnTo d s).timPend = false ∧
      ((turnTo d s).direction = .left →
        (turnTo d s).position.toNat = (s.position.toNat + 1) % 16) ∧
      ((turnTo d s).direction = .right →
        (turnTo d s).position.toNat = (s.position.toNat + 15) % 16)) ∧
    ((turnTo d s).direction = s.direction → (turnTo d s).position = s.position ∧
      (turnTo d s).rollover = s.rollover ∧ (turnTo d s).timPend = s.timPend) := by
  rw [turnTo_direction]
  refine ⟨fun h => ?_, fun h => by rw [turnTo_of_same h.symm]; exact ⟨rfl, rfl, rfl⟩⟩
  rw [turnTo_of_other h.symm]
  refine ⟨rfl, ?_, ?_⟩
  · rintro rfl
    simp [nextPosition_left]
  · rintro rfl
    simp [nextPosition_right]

/-- Settles O18: the tick would be served before a button, and a turn forces its own. -/
theorem forcedTickComesWithTheTurn : Obligations.ForcedTickComesWithTheTurn := by
  intro s t v hv h
  have hno : request s .tim = false := by
    obtain ⟨-, ha, -⟩ := service_next h
    by_contra hr
    have hle := number_le_of_arbitrate ha (eq_true_of_ne_false hr)
    obtain rfl | rfl := hv <;> exact absurd hle (by decide)
  have htick : s.timPend = true → s.timIe = false := fun hp => by simpa [request, hp] using hno
  obtain rfl | rfl := hv
  · obtain ⟨-, -, rfl⟩ := serviceStep_next h
    exact ⟨htick, turnTo_forces_tick .left { s with btnlPend := false }⟩
  · obtain ⟨-, -, rfl⟩ := serviceStep_next h
    exact ⟨htick, turnTo_forces_tick .right { s with btnrPend := false }⟩

/-! ## Both buttons at once -/

/-- A turn leaves every request as it is, unless its forced tick absorbs one. -/
theorem request_turnTo (d : Direction) (h : request s .tim = false) (v : IrqVector) :
    request (turnTo d s) v = request s v := by
  unfold turnTo
  split_ifs
  · rfl
  · cases v with
    | tim => exact h.symm
    | ms | btnl | btnr => rfl

/-- SVC_BTNL clears the left button's request and no other. -/
theorem request_btnlHandler (h : request s .tim = false) (v : IrqVector) :
    request (btnlHandler s) v = (decide (v ≠ .btnl) && request s v) :=
  (request_turnTo (s := { s with btnlPend := false }) .left h v).trans
    (by cases v <;> simp [request])

/-- SVC_BTNR clears the right button's request and no other. -/
theorem request_btnrHandler (h : request s .tim = false) (v : IrqVector) :
    request (btnrHandler s) v = (decide (v ≠ .btnr) && request s v) :=
  (request_turnTo (s := { s with btnrPend := false }) .right h v).trans
    (by cases v <;> simp [request])

/-- A step to the left and back (R123). -/
theorem nextPosition_right_left : ∀ p : BitVec 4, nextPosition .right (nextPosition .left p) = p := by
  decide

/-- The step back wraps exactly when the step to the left did. -/
theorem wraps_right_nextPosition_left : ∀ p : BitVec 4,
    wraps .right (nextPosition .left p) = wraps .left p := by
  decide

theorem btnlHandler_fault (s : State) : (btnlHandler s).fault = s.fault := by
  rw [btnlHandler, turnTo_eq]

theorem btnlHandler_btnlPend (s : State) : (btnlHandler s).btnlPend = false := by
  rw [btnlHandler, turnTo_eq]

theorem btnrHandler_btnlPend (s : State) : (btnrHandler s).btnlPend = s.btnlPend := by
  rw [btnrHandler, turnTo_eq]

theorem btnrHandler_btnrPend (s : State) : (btnrHandler s).btnrPend = false := by
  rw [btnrHandler, turnTo_eq]

/-- From LEFT the left button turns nothing, and the right one steps. -/
theorem bothHandlers_of_left (h : s.direction = .left) : btnrHandler (btnlHandler s) =
    advance { s with btnlPend := false, btnrPend := false, direction := .right } := by
  rw [btnlHandler, turnTo_of_same (by exact h), btnrHandler, turnTo_of_other (by simp [h])]

/-- From RIGHT both buttons step. -/
theorem bothHandlers_of_right (h : s.direction = .right) : btnrHandler (btnlHandler s) =
    advance { advance { s with btnlPend := false, direction := .left } with
      btnrPend := false, direction := .right } := by
  rw [btnlHandler, turnTo_of_other (by simp [h]), btnrHandler, turnTo_of_other (by simp)]

/-- Settles O17: a turn leaves the other button's request, so right follows left, and the second turn is
always from LEFT. -/
theorem bothButtonsServeLeftThenRight : Obligations.BothButtonsServeLeftThenRight := by
  intro s hf hms htim hl hr
  have hmid := request_btnlHandler htim
  have hend := request_btnrHandler (s := btnlHandler s) (by simp [hmid, htim])
  have hleft : exec .svcBtnl s = .next (btnlHandler s) :=
    whenSelected_of_chosen hf (arbitrate_eq_btnl hms htim hl)
  have hchosen : arbitrate (btnlHandler s) = some .btnr := by
    apply arbitrate_eq_btnr <;> simp [hmid, hms, htim, hr]
  have hright : exec .svcBtnr (btnlHandler s) = .next (btnrHandler (btnlHandler s)) :=
    whenSelected_of_chosen ((btnlHandler_fault s).trans hf) hchosen
  have hnone : arbitrate (btnrHandler (btnlHandler s)) = none := by
    refine (arbitrate_eq_none_iff _).mpr fun v => ?_
    cases v <;> simp [hend, hmid, hms, htim]
  refine ⟨_, _, hleft, hchosen, hright, hnone, turnTo_direction _ _,
    (btnrHandler_btnlPend _).trans (btnlHandler_btnlPend s), btnrHandler_btnrPend _,
    fun hd => ?_, fun hd => ?_⟩
  · rw [bothHandlers_of_right hd]
    simp [rolloverAfterAdvance, nextPosition_right_left, wraps_right_nextPosition_left, wraps_left]
  · rw [bothHandlers_of_left hd]
    simp [rolloverAfterAdvance, nextPosition_right, wraps_right]

end Sys2Proof.Safety
end

section
/-! What an operation does is its completed effect under its enabling condition, so a change of the state
that passes both passes the operation: MSCNT (R124) and the schedule (log 2) are such. -/

namespace Sys2Proof.Safety

open Sys2Proof.Machine

variable {f : State → State} {i : Instr} {s : State}

/-! ## The shape of every operation -/

/-- The enabling condition of an operation (R105, R150, R122). -/
def whenEnabled : Instr → State → Result → Result
  | .mstick | .tclk | .pinl _ | .pinr _ | .reset => whenRunning
  | .rdPos | .rdDir | .rdStatus | .rdSpeed | .rdCtrl | .rdMscnt | .rdTcnt | .rdTreload | .rdLed
  | .rdSnap | .rdPins | .wrStatus _ | .wrSpeed _ | .wrCtrl _ | .wrLedset _ | .wrLedclr _ =>
    whenHostMayRun
  | .svcMs => whenSelected .ms
  | .svcTim => whenSelected .tim
  | .svcBtnl => whenSelected .btnl
  | .svcBtnr => whenSelected .btnr

/-- Where it is enabled, an operation leaves its completed effect, or R72's fault with a word of its own
where its data byte breaks R72. -/
theorem exec_eq_whenEnabled (i : Instr) : ∃ w, ∀ s, exec i s = whenEnabled i s
    (if WellFormed i then .next (completed i s) else takeFault .reservedField w s) := by
  cases i with
  | tclk => exact ⟨0, fun s => congrArg (whenRunning s <| .next <| consume ·) (timerPulse_eq s)⟩
  | pinl d => exact ⟨pinWord 0x3 d, fun s => by rw [← pinDataOk_pinl]; rfl⟩
  | pinr d => exact ⟨pinWord 0x4 d, fun s => by rw [← pinDataOk_pinr]; rfl⟩
  | wrStatus d => exact ⟨writeWord .status d, fun s => by rw [← writeDataOk_status]; rfl⟩
  | wrSpeed d => exact ⟨writeWord .speed d, fun s => by rw [← writeDataOk_speed]; rfl⟩
  | wrCtrl d => exact ⟨writeWord .ctrl d, fun s => by rw [← writeDataOk_ctrl]; rfl⟩
  | wrLedset d => exact ⟨writeWord .ledset d, fun s => by rw [← writeDataOk_ledset]; rfl⟩
  | wrLedclr d => exact ⟨writeWord .ledclr d, fun s => by rw [← writeDataOk_ledclr]; rfl⟩
  | svcBtnl => exact ⟨0, exec_service .btnl⟩
  | svcBtnr => exact ⟨0, exec_service .btnr⟩
  | _ => exact ⟨0, fun s => rfl⟩

theorem Passive.whenEnabled_mapNext (hf : Passive f) (i : Instr) (k : Result) :
    whenEnabled i (f s) (mapNext f k) = mapNext f (whenEnabled i s k) := by
  cases i with
  | mstick | tclk | pinl | pinr | reset => exact hf.whenRunning_mapNext k
  | svcMs | svcTim | svcBtnl | svcBtnr => exact hf.whenSelected_mapNext _ k
  | _ => exact hf.whenHostMayRun_mapNext k

/-- A passive change that an operation's completed effect commutes with commutes with the operation. -/
theorem Passive.exec_mapNext (hf : Passive f) (hc : completed i (f s) = f (completed i s)) :
    exec i (f s) = mapNext f (exec i s) := by
  obtain ⟨w, hx⟩ := exec_eq_whenEnabled i
  rw [hx, hx, hc, hf.takeFault_mapNext, ← mapNext_next, ← apply_ite (mapNext f),
    hf.whenEnabled_mapNext]

/-! The fields of the effects that branch. -/

theorem timerPulse_tcnt (s : State) : (timerPulse s).tcnt =
    if s.timCen then (if atReload s then 0 else s.tcnt + 1) else s.tcnt := by
  unfold timerPulse
  split_ifs <;> rfl

theorem timerPulse_timPend (s : State) : (timerPulse s).timPend =
    if s.timCen then (if atReload s then latch s.timPend s.timIe true else s.timPend)
    else s.timPend := by
  unfold timerPulse
  split_ifs <;> rfl

theorem turnTo_timPend (d : Direction) (s : State) : (turnTo d s).timPend =
    if s.direction = d then s.timPend else false := by
  unfold turnTo
  split_ifs <;> rfl

theorem turnTo_position (d : Direction) (s : State) : (turnTo d s).position =
    if s.direction = d then s.position else nextPosition d s.position := by
  unfold turnTo
  split_ifs <;> rfl

theorem turnTo_rollover (d : Direction) (s : State) : (turnTo d s).rollover =
    if s.direction = d then s.rollover else s.rollover || wraps d s.position := by
  unfold turnTo
  split_ifs <;> rfl

/-! ## MSCNT -/

/-- The state with another MSCNT. -/
def setMscnt (n : BitVec 32) (s : State) : State := { s with mscnt := n }

theorem passive_setMscnt (n : BitVec 32) : Passive (setMscnt n) where
  fault_eq _ := rfl
  arbitrate_eq _ := rfl
  consume_comm _ := rfl
  hostReturn_comm _ _ _ := rfl
  raiseFault_comm _ _ _ := rfl

/-- RD MSCNT reads MSCNT, and SVC_MS and RESET write it; no other effect sees it. -/
theorem completed_setMscnt {n : BitVec 32} (hr : i ≠ .rdMscnt) (hm : i ≠ .svcMs)
    (hreset : i ≠ .reset) : completed i (setMscnt n s) = setMscnt n (completed i s) := by
  cases i with
  | rdMscnt => exact absurd rfl hr
  | svcMs => exact absurd rfl hm
  | reset => exact absurd rfl hreset
  | tclk => simp only [completed, timerPulse_tcnt, timerPulse_timPend]; rfl
  | svcBtnl | svcBtnr =>
    simp only [completed, btnlHandler, btnrHandler, turnTo_timPend, turnTo_position,
      turnTo_rollover, turnTo_direction]
    rfl
  | _ => rfl

/-- Settles O45: no enabling condition reads MSCNT, and no effect but the three that are left out. -/
theorem mscntHasNoConsumer : Obligations.MscntHasNoConsumer :=
  fun _ _ n hr hm hreset => (passive_setMscnt n).exec_mapNext (completed_setMscnt hr hm hreset)

/-! ## The schedule -/

/-- The state under another schedule. -/
def setSchedule (ts : List Turn) (s : State) : State := { s with schedule := ts }

theorem passive_setSchedule (ts : List Turn) : Passive (setSchedule ts) where
  fault_eq _ := rfl
  arbitrate_eq _ := rfl
  consume_comm _ := rfl
  hostReturn_comm _ _ _ := rfl
  raiseFault_comm _ _ _ := rfl

theorem completed_setSchedule (ts : List Turn) :
    completed i (setSchedule ts s) = setSchedule ts (completed i s) := by
  cases i with
  | tclk => simp only [completed, timerPulse_tcnt, timerPulse_timPend]; rfl
  | svcBtnl | svcBtnr =>
    simp only [completed, btnlHandler, btnrHandler, turnTo_timPend, turnTo_position,
      turnTo_rollover, turnTo_direction]
    rfl
  | _ => rfl

/-- No operation reads or writes the schedule (log 2). -/
theorem exec_setSchedule (ts : List Turn) (i : Instr) (s : State) :
    exec i (setSchedule ts s) = mapNext (setSchedule ts) (exec i s) :=
  (passive_setSchedule ts).exec_mapNext (completed_setSchedule ts)

theorem completed_schedule : (completed i s).schedule = s.schedule := by cases i <;> rfl

end Sys2Proof.Safety
end

section
/-! The interleaving (R131 to R133): what the next step is and where it stops, that every step is a
transition and every run of transitions a run of `step`, and that runs end. -/

namespace Sys2Proof.Safety

open Sys2Proof.Machine

variable {i : Instr} {s t : State} {v : IrqVector} {w : Word}

/-! ## What the next step is -/

theorem fetch_eq_none_iff : fetch s = none ↔ s.trace.length ≤ s.ip := List.getElem?_eq_none_iff

/-- Only with no request and no word is nothing enabled (R132). -/
theorem nextAction_eq_idle_iff : nextAction s = .idle ↔ arbitrate s = none ∧ fetch s = none := by
  unfold nextAction
  grind

/-- The service step has its turn unless the schedule names the word (R133). -/
theorem nextAction_eq_service (ha : arbitrate s = some v) (hs : s.schedule.head? ≠ some .word) :
    nextAction s = .service v := by
  unfold nextAction
  grind

/-- With no word, or a held one, the service step needs no turn (R150). -/
theorem nextAction_of_no_choice (ha : arbitrate s = some v) (hc : choicePoint s = false) :
    nextAction s = .service v := by
  cases hw : fetch s with
  | none => simp only [nextAction, ha, hw]
  | some w =>
    have hh : isHostWord w = true := by simpa [choicePoint, ha, hw] using hc
    simp only [nextAction, ha, hw, if_pos hh]

theorem nextAction_of_word_turn {rest : List Turn} (ha : arbitrate s = some v)
    (hw : fetch s = some w) (hh : isHostWord w = false) (hs : s.schedule = .word :: rest) :
    nextAction s = .word w := by
  simp [nextAction, ha, hw, hh, hs]

/-! ## The turn that is used up -/

theorem takeTurn_of_no_choice (hc : choicePoint s = false) : takeTurn s = s := by
  simp [takeTurn, hc]

theorem takeTurn_of_choice {turn : Turn} {rest : List Turn} (hc : choicePoint s = true)
    (hs : s.schedule = turn :: rest) : takeTurn s = { s with schedule := rest } := by
  rw [takeTurn, if_pos hc, popTurn, hs, List.tail_cons]

/-- The eager schedule names no turn, so none is used up. -/
theorem takeTurn_of_eager (hs : s.schedule = []) : takeTurn s = s := by
  have htail : s.schedule.tail = s.schedule := by rw [hs]; rfl
  unfold takeTurn
  split_ifs
  · exact congrArg (setSchedule · s) htail
  · rfl

/-- The step with no choice to make is the arbiter's service step (R131, R150). -/
theorem step_of_no_choice (hf : s.fault = none) (ha : arbitrate s = some v)
    (hc : choicePoint s = false) : step s = exec (serviceInstr v) s := by
  rw [step_of_service hf (nextAction_of_no_choice ha hc), takeTurn_of_no_choice hc]

/-- The eager step is the arbiter's service step (R133). -/
theorem step_of_eager (hf : s.fault = none) (ha : arbitrate s = some v) (hs : s.schedule = []) :
    step s = exec (serviceInstr v) s := by
  rw [step_of_service hf (nextAction_eq_service ha (by simp [hs])), takeTurn_of_eager hs]

/-- Settles O34: where there is a choice the schedule's turn makes it and is used up. -/
theorem stepRunsTheDecodedOperation : Obligations.StepRunsTheDecodedOperation := by
  refine fun s hf => ⟨fun w i hw hd => ⟨fun ha => ?_, fun v ha hh => ?_, fun v ha hh => ?_⟩,
    fun v hw ha => step_of_no_choice hf ha (by simp [choicePoint, hw])⟩
  · rw [step_of_word hf (nextAction_of_no_request ha hw) hd, takeTurn_of_idle_arbiter ha]
  · exact step_of_no_choice hf ha (by simp [choicePoint, hw, hh])
  · have hc := choicePoint_of_request ha hw hh
    refine ⟨fun rest hs => ?_, fun rest hs => ?_, step_of_eager hf ha⟩
    · rw [step_of_word hf (nextAction_of_word_turn ha hw hh hs) hd, takeTurn_of_choice hc hs]
    · rw [step_of_service hf (nextAction_eq_service ha (by simp [hs])), takeTurn_of_choice hc hs]

/-! ## Where the machine stops -/

theorem step_of_final (h : Final s) : step s = .fault .runEnded :=
  step_of_idle h.noFault
    (nextAction_eq_idle_iff.mpr ⟨h.noRequest, fetch_eq_none_iff.mpr h.consumed.ge⟩)

theorem exists_step_of_not_final (hip : s.ip ≤ s.trace.length) (hf : s.fault = none)
    (h : ¬ Final s) : ∃ t, step s = .next t := by
  cases ha : nextAction s with
  | idle =>
    obtain ⟨hnone, hw⟩ := nextAction_eq_idle_iff.mp ha
    exact absurd ⟨hip.antisymm (fetch_eq_none_iff.mp hw), hnone, hf⟩ h
  | service v =>
    obtain ⟨t, hstep, hx⟩ := step_runs_service hf ha
    exact ⟨t, hstep.trans hx⟩
  | word w =>
    cases hd : decodeWord w with
    | instr i =>
      obtain ⟨t, hstep, hx⟩ := step_runs_word hf ha hd
      exact ⟨t, hstep.trans hx⟩
    | reject c => exact ⟨_, step_of_badWord hf ha hd⟩

/-- Settles O33: within the trace, with no fault, only a final state has neither a word nor a request. -/
theorem onlyFaultedAndFinalStatesStop : Obligations.OnlyFaultedAndFinalStatesStop :=
  fun _ hip => ⟨fun _ hf => step_of_faulted hf, step_of_final, exists_step_of_not_final hip⟩

/-! ## Steps are transitions -/

/-- A step keeps the schedule its turn left, and is a transition from there. -/
theorem transition_of_step (h : step s = .next t) :
    t.schedule = (takeTurn s).schedule ∧ Transition (takeTurn s) t := by
  obtain ⟨hf, hend⟩ := step_next h
  have hf : (takeTurn s).fault = none := (takeTurn_fault s).trans hf
  obtain ⟨v, ha, hx⟩ | ⟨w, i, ha, hd, hx⟩ | ⟨w, c, ha, hd, rfl⟩ := hend
  · refine ⟨?_, .service hf ((arbitrate_takeTurn s).trans (arbitrate_of_nextAction_service ha)) hx⟩
    rw [exec_next_of_wellFormed (serviceInstr_wellFormed v) hx, completed_schedule]
  all_goals
    obtain ⟨hw, hheld⟩ := fetch_of_nextAction_word ha
    rw [← fetch_takeTurn] at hw
    rw [← arbitrate_takeTurn] at hheld
  · refine ⟨?_, .word hf hw hheld hd hx⟩
    rw [exec_next_of_wellFormed (wordOp_of_decodeWord hd).wellFormed hx, completed_schedule]
  · exact ⟨rfl, .badWord hf hw hheld hd⟩

/-- Settles O36: the schedule after the step is the one its turn left. -/
theorem everyStepIsATransition : Obligations.EveryStepIsATransition := by
  intro s t h
  obtain ⟨hs, ht⟩ := transition_of_step h
  rwa [hs, ← takeTurn_eq]

/-! ## Transitions are steps -/

/-- A given turn is the one that is taken. -/
theorem takeTurn_giveTurn (turn : Turn) (s : State) : takeTurn (giveTurn turn s) = s := by
  cases hc : choicePoint s with
  | true => rw [giveTurn, if_pos hc]; exact takeTurn_of_choice hc rfl
  | false => simp [giveTurn, takeTurn, hc]

theorem nextAction_giveTurn_of_not_held (hw : fetch s = some w)
    (hheld : isHostWord w = true → arbitrate s = none) : nextAction (giveTurn .word s) = .word w := by
  cases hh : isHostWord w with
  | true => exact nextAction_of_no_request (by simp [hheld hh]) (by simp [hw])
  | false => exact nextAction_giveTurn_word hw hh

/-- Every transition is a step before any further turns, once it is given its own. -/
theorem exists_turn_of_transition (h : Transition s t) (ts : List Turn) :
    ∃ turn, step (giveTurn turn (setSchedule ts s)) = .next (setSchedule ts t) := by
  have hrunning (turn : Turn) (hf : s.fault = none) :
      (giveTurn turn (setSchedule ts s)).fault = none := (giveTurn_fault ..).trans hf
  cases h with
  | service hf ha hx =>
    refine ⟨.service, ?_⟩
    rw [step_of_service (hrunning _ hf) (nextAction_giveTurn_service ha), takeTurn_giveTurn,
      exec_setSchedule, hx, mapNext_next]
  | word hf hw hheld hd hx =>
    refine ⟨.word, ?_⟩
    rw [step_of_word (hrunning _ hf) (nextAction_giveTurn_of_not_held hw hheld) hd,
      takeTurn_giveTurn, exec_setSchedule, hx, mapNext_next]
  | badWord hf hw hheld hd =>
    refine ⟨.word, ?_⟩
    rw [step_of_badWord (hrunning _ hf) (nextAction_giveTurn_of_not_held hw hheld) hd,
      takeTurn_giveTurn, (passive_setSchedule ts).raiseFault_comm]

theorem run_succ_of_step (h : step s = .next t) (k : Nat) :
    Host.Core.run Sys2Proof.core (k + 1) s = Host.Core.run Sys2Proof.core k t := by
  have hcore : Sys2Proof.core.step s = .next t := h
  simp only [Host.Core.run, hcore]

/-- Settles O37: each transition's turn goes before the turns of the run that follows it. -/
theorem scheduleRealisesEveryRun : Obligations.ScheduleRealisesEveryRun := by
  intro s t h
  induction h using Relation.ReflTransGen.head_induction_on with
  | refl => exact ⟨0, t.schedule, rfl⟩
  | @head s u hfirst _ ih =>
    obtain ⟨n, ts, hrun⟩ := ih
    obtain ⟨turn, hstep⟩ := exists_turn_of_transition hfirst ts
    rw [giveTurn_eq] at hstep
    exact ⟨n + 1, _, (run_succ_of_step hstep n).trans hrun⟩

/-! ## What is left to do -/

theorem pendingCount_le (s : State) : pendingCount s ≤ 4 := by
  have hms := s.msPend.toNat_le
  have htim := s.timPend.toNat_le
  have hbtnl := s.btnlPend.toNat_le
  have hbtnr := s.btnrPend.toNat_le
  unfold pendingCount
  omega

theorem turnTo_timPend_le (d : Direction) (s : State) :
    (turnTo d s).timPend.toNat ≤ s.timPend.toNat := by
  rw [turnTo_timPend]
  split_ifs
  · exact le_rfl
  · exact Nat.zero_le _

/-- A service step clears its own flag and latches none (R122). -/
theorem pendingCount_service (ha : arbitrate s = some v) :
    pendingCount (completed (serviceInstr v) s) < pendingCount s := by
  have hreq := request_of_arbitrate ha
  cases v with
  | ms | tim =>
    obtain ⟨hp, -⟩ := Bool.and_eq_true_iff.mp hreq
    simp [pendingCount, serviceInstr, completed, hp]
  | btnl =>
    obtain ⟨hp, -⟩ := Bool.and_eq_true_iff.mp hreq
    have htim := turnTo_timPend_le .left { s with btnlPend := false }
    simp only [pendingCount, serviceInstr, completed, btnlHandler, hp, Bool.toNat_true,
      Bool.toNat_false] at htim ⊢
    omega
  | btnr =>
    obtain ⟨hp, -⟩ := Bool.and_eq_true_iff.mp hreq
    have htim := turnTo_timPend_le .right { s with btnrPend := false }
    simp only [pendingCount, serviceInstr, completed, btnrHandler, hp, Bool.toNat_true,
      Bool.toNat_false] at htim ⊢
    omega

/-- An operation word latches at most one flag (R100 to R104). -/
theorem pendingCount_word (hi : isService i = false) :
    pendingCount (completed i s) ≤ pendingCount s + 1 := by
  cases i with
  | mstick =>
    have hlatch := (latch s.msPend s.msEn true).toNat_le
    dsimp only [pendingCount, completed, consume, msTick]
    omega
  | tclk =>
    have hlatch := (timerPulse s).timPend.toNat_le
    dsimp only [pendingCount, completed, consume]
    omega
  | pinl d =>
    have hlatch := (sampleLeft (levelOperand d) s).btnlPend.toNat_le
    dsimp only [pendingCount, completed, consume, sampleLeft] at hlatch ⊢
    omega
  | pinr d =>
    have hlatch := (sampleRight (levelOperand d) s).btnrPend.toNat_le
    dsimp only [pendingCount, completed, consume, sampleRight] at hlatch ⊢
    omega
  | reset => exact Nat.zero_le _
  | svcMs | svcTim | svcBtnl | svcBtnr => cases hi
  | _ => exact Nat.le_succ _

/-- The eager run serves until nothing requests (R133). -/
theorem eager_run_clears (s : State) (hf : s.fault = none) (hs : s.schedule = []) :
    ∃ k t, k ≤ pendingCount s ∧ Host.Core.run Sys2Proof.core k s = .next t ∧
      arbitrate t = none ∧ t.ip = s.ip ∧ t.hlog = s.hlog ∧ t.fault = none := by
  cases ha : arbitrate s with
  | none => exact ⟨0, s, Nat.zero_le _, rfl, ha, rfl, rfl, hf⟩
  | some v =>
    have hfewer := pendingCount_service ha
    have hstep : step s = .next (completed (serviceInstr v) s) := by
      rw [step_of_eager hf ha hs, exec_service, whenSelected_of_chosen hf ha]
    obtain ⟨k, t, hk, hrun, hnone, hip, hlog, hft⟩ :=
      eager_run_clears _ (completed_fault.trans hf) (completed_schedule.trans hs)
    have hservice := isService_serviceInstr v
    exact ⟨k + 1, t, by omega, (run_succ_of_step hstep k).trans hrun, hnone,
      hip.trans (completed_ip_of_service hservice),
      hlog.trans (completed_hlog_of_not_read (not_read_of_service hservice)), hft⟩
termination_by pendingCount s

/-- Settles O38: every eager step clears one of at most four flags. -/
theorem eagerServiceClearsRequests : Obligations.EagerServiceClearsRequests := by
  intro s hf hs
  obtain ⟨k, t, hk, hcleared⟩ := eager_run_clears s hf hs
  exact ⟨k, t, hk.trans (pendingCount_le s), hcleared⟩

/-- The steps a run can still take without a fault: a word and the flag it may latch, and the flags that
are latched. -/
def workLeft (s : State) : Nat := 2 * (s.trace.length - s.ip) + pendingCount s

theorem workLeft_takeTurn (s : State) : workLeft (takeTurn s) = workLeft s := by
  rw [takeTurn_eq]; rfl

/-- A transition faults, or it leaves less to do and IP within the trace. -/
theorem transition_does_work (hip : s.ip ≤ s.trace.length) (h : Transition s t) :
    Faulted t ∨ (t.fault = none ∧ t.ip ≤ t.trace.length ∧ workLeft t < workLeft s) := by
  unfold workLeft
  cases h with
  | service hf ha hx =>
    obtain rfl := exec_next_of_wellFormed (serviceInstr_wellFormed _) hx
    have hfewer := pendingCount_service ha
    rw [completed_fault, completed_trace, completed_ip_of_service (isService_serviceInstr _)]
    exact .inr ⟨hf, hip, by omega⟩
  | word hf hw _ hd hx =>
    obtain ⟨hwf, hi⟩ := wordOp_of_decodeWord hd
    obtain rfl := exec_next_of_wellFormed hwf hx
    have hlt := ip_lt_of_fetch hw
    have hlatched := pendingCount_word (s := s) hi
    rw [completed_fault, completed_trace, completed_ip_of_word hi]
    exact .inr ⟨hf, hlt, by omega⟩
  | badWord => exact .inl rfl

/-- So does a step: its turn is no work. -/
theorem step_does_work (hip : s.ip ≤ s.trace.length) (h : step s = .next t) :
    Faulted t ∨ (t.fault = none ∧ t.ip ≤ t.trace.length ∧ workLeft t < workLeft s) := by
  rw [← takeTurn_ip, ← takeTurn_trace] at hip
  rw [← workLeft_takeTurn s]
  exact transition_does_work hip (transition_of_step h).2

/-- A run ends when its work is done, or before by a fault (R131, R132). -/
theorem run_ends (s : State) (hf : s.fault = none) (hip : s.ip ≤ s.trace.length) :
    ∃ k t, k ≤ workLeft s + 1 ∧ Host.Core.run Sys2Proof.core k s = .next t ∧
      (Final t ∨ Faulted t) := by
  by_cases hfinal : Final s
  · exact ⟨0, s, Nat.zero_le _, rfl, .inl hfinal⟩
  obtain ⟨u, hstep⟩ := exists_step_of_not_final hip hf hfinal
  obtain hbad | ⟨hfu, hipu, hless⟩ := step_does_work hip hstep
  · exact ⟨1, u, Nat.le_add_left 1 _, run_succ_of_step hstep 0, .inr hbad⟩
  · obtain ⟨k, t, hk, hrun, hend⟩ := run_ends u hfu hipu
    exact ⟨k + 1, t, by omega, (run_succ_of_step hstep k).trans hrun, hend⟩
termination_by workLeft s

/-- Settles O39: the bound is the work left and one step for a fault. -/
theorem everyRunOfATraceEnds : Obligations.EveryRunOfATraceEnds :=
  run_ends

end Sys2Proof.Safety
end

section
/-! The arbiter's hold on host accesses (R150), and what each host read returns (R151 to R168). -/

namespace Sys2Proof.Safety

open Sys2Proof.Machine

variable {s : State} {i : Instr} {r : HostReg} {v v' : RegVal}

/-! ## Held accesses -/

/-- Settles O23: a host word gives no choice, so the step is the arbiter's service step, which leaves IP,
HLOG and the trace. -/
theorem hostWordWaitsForService : Obligations.HostWordWaitsForService := by
  intro s w v hf hw hh ha
  obtain ⟨t, hx⟩ := exec_service_runs hf ha
  have hservice := isService_serviceInstr v
  obtain ⟨-, -, rfl⟩ := service_next hx
  have hip := completed_ip_of_service (s := s) hservice
  refine ⟨_, ?_, hx, hip, ?_, completed_hlog_of_not_read (not_read_of_service hservice)⟩
  · rw [step_of_no_choice hf ha (by simp [choicePoint, hw, hh]), hx]
  · rw [fetch, completed_trace, hip, ← fetch, hw]

/-- The enabling condition of a host access (R150). -/
theorem whenEnabled_of_access (hi : isRead i = true ∨ isWrite i = true) :
    whenEnabled i = whenHostMayRun := by
  cases i with
  | mstick | tclk | pinl | pinr | reset | svcMs | svcTim | svcBtnl | svcBtnr =>
    obtain hi | hi := hi <;> cases hi
  | _ => rfl

theorem whenHostMayRun_of_held {k : Result} (hf : s.fault = none) (ha : arbitrate s ≠ none) :
    whenHostMayRun s k = .fault .hostWordHeld := by
  rw [whenHostMayRun, whenRunning_of_none hf, if_pos (Option.isSome_iff_ne_none.mpr ha)]

/-- Settles O24: a host access has the host's enabling condition. -/
theorem heldHostOperationStops : Obligations.HeldHostOperationStops := by
  intro s i hi hf ha
  obtain ⟨_, hx⟩ := exec_eq_whenEnabled i
  rw [hx, whenEnabled_of_access hi, whenHostMayRun_of_held hf ha]

/-! ## The values of the read layouts, as numbers -/

theorem toNat_append_eq_add {m n : Nat} (x : BitVec m) (y : BitVec n) :
    (x ++ y).toNat = 2 ^ n * x.toNat + y.toNat := by
  rw [BitVec.toNat_append, ← Nat.shiftLeft_add_eq_or_of_lt y.isLt, Nat.shiftLeft_eq, Nat.mul_comm]

theorem zext_eq_ofNat {n k : Nat} {x : BitVec n} (h : x.toNat = k) : zext x = BitVec.ofNat 32 k :=
  BitVec.eq_of_toNat_eq (by simp [zext, h])

theorem directionBit_toNat (d : Direction) :
    (directionBit d).toNat = if d = .right then 1 else 0 := by
  cases d <;> rfl

theorem snapValue_eq (s : State) : snapValue s = BitVec.ofNat 32 (s.position.toNat
    + 16 * (if s.direction = .right then 1 else 0) + 32 * s.rollover.toNat
    + 64 * s.speedLevel.toNat) := by
  apply zext_eq_ofNat
  simp only [toNat_append_eq_add, BitVec.toNat_ofBool, directionBit_toNat]
  omega

theorem statusValue_eq (s : State) : statusValue s = BitVec.ofNat 32 (s.rollover.toNat
    + 2 * s.msPend.toNat + 4 * s.timPend.toNat + 8 * s.btnlPend.toNat + 16 * s.btnrPend.toNat) := by
  apply zext_eq_ofNat
  simp only [toNat_append_eq_add, BitVec.toNat_ofBool]
  omega

theorem ctrlValue_eq (s : State) : ctrlValue s = BitVec.ofNat 32 (s.msEn.toNat
    + 2 * s.timIe.toNat + 4 * s.timCen.toNat + 8 * s.btnlIe.toNat + 16 * s.btnrIe.toNat) := by
  apply zext_eq_ofNat
  simp only [toNat_append_eq_add, BitVec.toNat_ofBool]
  omega

theorem pinsValue_eq (s : State) :
    pinsValue s = BitVec.ofNat 32 (s.lvlL.toNat + 2 * s.lvlR.toNat) := by
  apply zext_eq_ofNat
  simp only [toNat_append_eq_add, BitVec.toNat_ofBool]
  omega

/-! ## What a read leaves -/

/-- A read that is not held appends its value, however it is written (R151). -/
theorem readStep_appends (hs : HostMayRun s) (hv : v = v') :
    readStep r v s = .next { s with hlog := s.hlog ++ [(r.addr, v')], ip := s.ip + 1 } := by
  subst hv
  exact readStep_of_hostMayRun hs

/-- Settles O19: each read appends its layout's number. -/
theorem readsOfTheSharedState : Obligations.ReadsOfTheSharedState :=
  ⟨by decide, by decide, by decide, by decide, fun s hs =>
    ⟨readStep_appends hs (zext_eq_ofNat rfl),
      readStep_appends hs (zext_eq_ofNat (directionBit_toNat s.direction)),
      readStep_appends hs (zext_eq_ofNat rfl), readStep_appends hs (snapValue_eq s)⟩⟩

/-- A source that does not request and whose flag is latched is masked (R120). -/
theorem masked_of_no_request {pend enabled : Bool} (h : (pend && enabled) = false)
    (hp : pend = true) : enabled = false := by
  rwa [hp, Bool.true_and] at h

/-- Settles O20: each read appends its layout's number, and with no request every latched flag is
masked. -/
theorem readsOfFlagsEnablesAndPins : Obligations.ReadsOfFlagsEnablesAndPins := by
  refine ⟨by decide, by decide, by decide, fun s hs => ?_⟩
  have hno := (arbitrate_eq_none_iff s).mp hs.noRequest
  exact ⟨readStep_appends hs (statusValue_eq s),
    masked_of_no_request (hno .ms), masked_of_no_request (hno .tim),
    masked_of_no_request (hno .btnl), masked_of_no_request (hno .btnr),
    readStep_appends hs (ctrlValue_eq s), readStep_appends hs (pinsValue_eq s)⟩

/-- Settles O21: each read appends its field, and under R36 (c) TRELOAD is its level's reload value. -/
theorem readsOfCountersAndLed : Obligations.ReadsOfCountersAndLed :=
  ⟨by decide, by decide, by decide, by decide, fun s hs =>
    ⟨readStep_appends hs rfl, readStep_appends hs rfl, readStep_appends hs rfl,
      fun hinv => readStep_appends hs hinv.reloadOfLevel, readStep_appends hs (zext_eq_ofNat rfl)⟩⟩

end Sys2Proof.Safety
end

section
/-! The host writes (R152, R156 to R166): what each leaves, and R72's fault of its data byte. -/

namespace Sys2Proof.Safety

open Sys2Proof.Machine

variable {s : State} {i : Instr} {r : HostReg} {d : Byte} {f : State → State} {k : Nat}

/-! ## The shape of a write -/

theorem writeWord_eq_base (r : HostReg) (d : Byte) :
    writeWord r d = BitVec.ofNat 16 (0x6000 + 0x100 * r.addr.toNat + d.toNat) := by
  apply BitVec.eq_of_toNat_eq
  simp only [writeWord, makeWord_toNat, BitVec.ofNat_eq_ofNat, BitVec.toNat_ofNat]
  omega

theorem writeStep_of_badData (hs : HostMayRun s) (hd : writeDataOk r d = false) :
    writeStep r d f s = .next (raiseFault .reservedField (writeWord r d) s) := by
  rw [writeStep, whenHostMayRun_of_free hs.noFault hs.noRequest, hd]
  rfl

/-- A write that is not held (R152): below its register's bound a data byte has a word that decodes and
the write takes effect; from the bound on it takes R72's fault. -/
theorem writeStep_by_bound {base bound : Nat} (hs : HostMayRun s)
    (hbound : writeDataOk r d = decide (d.toNat < bound))
    (hbase : 0x6000 + 0x100 * r.addr.toNat = base) (hform : writeForm d r = some i) :
    (d.toNat < bound → decodeWord (BitVec.ofNat 16 (base + d.toNat)) = .instr i) ∧
    (d.toNat < bound → writeStep r d f s = .next (consume (f s))) ∧
    (bound ≤ d.toNat → writeStep r d f s = .next { s with
      fault := some ⟨.reservedField, BitVec.ofNat 16 (base + d.toNat)⟩ }) := by
  rw [← hbase, ← writeWord_eq_base]
  have hok (hd : d.toNat < bound) : writeDataOk r d = true := hbound.trans (decide_eq_true hd)
  have hbad (hd : bound ≤ d.toNat) : writeDataOk r d = false :=
    hbound.trans (decide_eq_false hd.not_gt)
  exact ⟨fun hd => decodeWord_writeWord hform (hok hd), fun hd => writeStep_of_hostMayRun hs (hok hd),
    fun hd => writeStep_of_badData hs (hbad hd)⟩

/-! ## STATUS, SPEED and CTRL -/

theorem rolloverAfterClear_of_lt (s : State) (hd : d.toNat < 2) :
    rolloverAfterClear s (clearOperand d) = if d.toNat = 1 then false else s.rollover := by
  have hbit : clearOperand d = decide (d.toNat = 1) := levelOperand_of_lt d hd
  simp [rolloverAfterClear, hbit]

/-- Settles O25: the clear mask of a legal data byte is the byte. -/
theorem wrStatusClearsRollover : Obligations.WrStatusClearsRollover := by
  intro s d hs
  obtain ⟨hdecodes, hruns, hfaults⟩ := writeStep_by_bound hs (writeDataOk_status d) rfl rfl
  refine ⟨hdecodes, fun hd => ?_, hfaults⟩
  rw [← rolloverAfterClear_of_lt s hd]
  exact hruns hd

/-- Settles O26: the level is the low two bits of the data byte's number. -/
theorem wrSpeedReprogramsTheTimer : Obligations.WrSpeedReprogramsTheTimer :=
  fun _ d hs => writeStep_by_bound hs (writeDataOk_speed d) rfl rfl

/-- Settles O27: the enables are the bits of the data byte's number. -/
theorem wrCtrlSetsTheEnables : Obligations.WrCtrlSetsTheEnables :=
  fun _ d hs => writeStep_by_bound hs (writeDataOk_ctrl d) rfl rfl

/-! ## LEDSET and LEDCLR -/

theorem ledBit_getLsbD (p : BitVec 4) (k : Nat) : (ledBit p).getLsbD k = decide (k = p.toNat) := by
  rw [ledBit, ← BitVec.twoPow_eq, BitVec.getLsbD_twoPow]
  simp [p.isLt, eq_comm]

theorem getLsbD_or_ledBit (led : BitVec 16) (p : BitVec 4) (k : Nat) :
    (led ||| ledBit p).getLsbD k = if k = p.toNat then true else led.getLsbD k := by
  rw [BitVec.getLsbD_or, ledBit_getLsbD]
  split_ifs with hp <;> simp [hp]

theorem getLsbD_and_not_ledBit (led : BitVec 16) (p : BitVec 4) (hk : k < 16) :
    (led &&& ~~~ledBit p).getLsbD k = if k = p.toNat then false else led.getLsbD k := by
  rw [BitVec.getLsbD_and, BitVec.getLsbD_not, ledBit_getLsbD]
  split_ifs with hp <;> simp [hp, hk]

theorem positionOperand_toNat (hd : d.toNat < 16) : (positionOperand d).toNat = d.toNat :=
  Nat.mod_eq_of_lt hd

/-- Settles O28: the LED image is the old one with the position's bit set. -/
theorem wrLedsetTurnsOneLineOn : Obligations.WrLedsetTurnsOneLineOn := by
  intro s d hs
  obtain ⟨hdecodes, hruns, hfaults⟩ := writeStep_by_bound hs (writeDataOk_ledset d) rfl rfl
  refine ⟨hdecodes, fun hd => ⟨_, hruns hd, fun k _ => ?_⟩, hfaults⟩
  rw [setLed_led, getLsbD_or_ledBit, positionOperand_toNat hd]

/-- Settles O29: the LED image is the old one with the position's bit cleared. -/
theorem wrLedclrTurnsOneLineOff : Obligations.WrLedclrTurnsOneLineOff := by
  intro s d hs
  obtain ⟨hdecodes, hruns, hfaults⟩ := writeStep_by_bound hs (writeDataOk_ledclr d) rfl rfl
  refine ⟨hdecodes, fun hd => ⟨_, hruns hd, fun k hk => ?_⟩, hfaults⟩
  rw [clearLed_led, getLsbD_and_not_ledBit _ _ hk, positionOperand_toNat hd]

end Sys2Proof.Safety
end

section
/-! The host procedures: display (R170), rollover (R171) and an iteration of both (R172), each as the
effect of its writes on what the snapshot leaves. -/

namespace Sys2Proof.Safety

open Sys2Proof.Machine

variable {s t : State} {i : Instr} {k : Nat}

/-! ## The snapshot's fields are the state's -/

@[simp] theorem snapPosition_snapValue (s : State) : snapPosition (snapValue s) = s.position := by
  apply BitVec.eq_of_toNat_eq
  rw [snapPosition, snapValue_eq, BitVec.extractLsb'_toNat, BitVec.toNat_ofNat]
  omega

@[simp] theorem snapSpeed_snapValue (s : State) : snapSpeed (snapValue s) = s.speedLevel := by
  apply BitVec.eq_of_toNat_eq
  rw [snapSpeed, snapValue_eq, BitVec.extractLsb'_toNat, BitVec.toNat_ofNat,
    Nat.shiftRight_eq_div_pow]
  have hrollover := s.rollover.toNat_le
  split_ifs <;> omega

@[simp] theorem snapRollover_snapValue (s : State) : snapRollover (snapValue s) = s.rollover := by
  simp only [snapRollover, snapValue, zext, BitVec.getLsbD_setWidth, BitVec.getLsbD_append]
  simp

@[simp] theorem snapDirection_snapValue (s : State) : snapDirection (snapValue s) = s.direction := by
  simp only [snapDirection, snapValue, zext, BitVec.getLsbD_setWidth, BitVec.getLsbD_append]
  cases s.direction <;> rfl

/-! ## Running the writes -/

/-- Only a CTRL write can raise a request (R150, R160). -/
theorem completed_keeps_hostMayRun (hi : isRead i = true ∨ isWrite i = true)
    (hctrl : ∀ d, i ≠ .wrCtrl d) (hs : HostMayRun s) : HostMayRun (completed i s) := by
  cases i with
  | wrCtrl d => exact absurd rfl (hctrl d)
  | rdPos | rdDir | rdStatus | rdSpeed | rdCtrl | rdMscnt | rdTcnt | rdTreload | rdLed | rdSnap
  | rdPins | wrStatus | wrSpeed | wrLedset | wrLedclr => exact ⟨hs.noFault, hs.noRequest⟩
  | _ => obtain hi | hi := hi <;> cases hi

theorem execAll_pair_of_writes {j : Instr} (hi : isWrite i = true) (hj : isWrite j = true)
    (hwi : WellFormed i = true) (hwj : WellFormed j = true) (hctrl : ∀ d, i ≠ .wrCtrl d)
    (hs : HostMayRun s) : execAll [i, j] s = .next (completed j (completed i s)) := by
  have hs' := completed_keeps_hostMayRun (.inr hi) hctrl hs
  simp only [execAll, exec_of_hostMayRun (.inr hi) hwi hs, exec_of_hostMayRun (.inr hj) hwj hs']

theorem hostMayRun_after_rdSnap (hs : HostMayRun s) : HostMayRun (completed .rdSnap s) :=
  completed_keeps_hostMayRun (.inl rfl) (by simp) hs

/-- The host derives its writes from the snapshot of the state it reads. -/
theorem afterSnapshot_of_hostMayRun (react : RegVal → List Instr) (hs : HostMayRun s) :
    afterSnapshot react s = execAll (react (snapValue s)) (completed .rdSnap s) := by
  have hread : lastRead (completed .rdSnap s) = snapValue s := by
    simp [lastRead, completed]
  simp only [afterSnapshot, exec_of_hostMayRun (i := .rdSnap) (.inl rfl) rfl hs, hread]

/-! ## The display's writes -/

/-- The LED image the display's two writes leave: the position's line on, then the previous one's off
(R170). -/
def displayedLed (v : RegVal) (led : BitVec 16) : BitVec 16 :=
  (led ||| ledBit (snapPosition v)) &&& ~~~ledBit (prevPosition (snapPosition v) (snapDirection v))

/-- The state the display's two writes leave: `execAll_displayWrites`. -/
def displayed (v : RegVal) (s : State) : State :=
  { s with led := displayedLed v s.led, ip := s.ip + 2 }

theorem displayed_keeps_hostMayRun (v : RegVal) (hs : HostMayRun s) : HostMayRun (displayed v s) :=
  ⟨hs.noFault, hs.noRequest⟩

theorem positionOperand_setWidth : ∀ p : BitVec 4, positionOperand (p.setWidth 8) = p := by decide

theorem wrLedset_wellFormed : ∀ p : BitVec 4, WellFormed (.wrLedset (p.setWidth 8)) = true := by
  decide

theorem wrLedclr_wellFormed : ∀ p : BitVec 4, WellFormed (.wrLedclr (p.setWidth 8)) = true := by
  decide

theorem execAll_displayWrites (v : RegVal) (hs : HostMayRun s) :
    execAll (displayWrites v) s = .next (displayed v s) := by
  rw [displayWrites, execAll_pair_of_writes rfl rfl (wrLedset_wellFormed _) (wrLedclr_wellFormed _)
    (by simp) hs, completed, completed, positionOperand_setWidth, positionOperand_setWidth]
  rfl

/-- The previous position is one step back along the direction (R170). -/
theorem prevPosition_toNat (p : BitVec 4) (d : Direction) : (prevPosition p d).toNat =
    if d = .left then (p.toNat + 15) % 16 else (p.toNat + 1) % 16 := by
  cases d <;> simp [prevPosition]

theorem prevPosition_ne (p : BitVec 4) (d : Direction) : prevPosition p d ≠ p := by
  revert p; cases d <;> decide

/-- The two lines differ, so the second write leaves the first's line. -/
theorem displayedLed_getLsbD (v : RegVal) (led : BitVec 16) (hk : k < 16) :
    (displayedLed v led).getLsbD k =
      if k = (snapPosition v).toNat then true
      else if k = (prevPosition (snapPosition v) (snapDirection v)).toNat then false
      else led.getLsbD k := by
  rw [displayedLed, getLsbD_and_not_ledBit _ _ hk, getLsbD_or_ledBit]
  apply ite_ite_comm
  intro hprev hpos
  exact prevPosition_ne _ _ (BitVec.eq_of_toNat_eq (hprev.symm.trans hpos))

/-- The same two lines again change no line. -/
theorem displayedLed_idem (v : RegVal) (led : BitVec 16) :
    displayedLed v (displayedLed v led) = displayedLed v led := by
  apply BitVec.eq_of_getLsbD_eq
  intro k hk
  rw [displayedLed_getLsbD v _ hk, displayedLed_getLsbD v _ hk]
  split_ifs <;> rfl

theorem displayRun_of_hostMayRun (hs : HostMayRun s) :
    displayRun s = .next (displayed (snapValue s) (completed .rdSnap s)) :=
  (afterSnapshot_of_hostMayRun _ hs).trans
    (execAll_displayWrites _ (hostMayRun_after_rdSnap hs))

/-- Settles O56: the second run reads the same snapshot, so it writes the same two lines. -/
theorem displayRunMovesTheLitLine : Obligations.DisplayRunMovesTheLitLine := by
  intro s hs
  have ht := displayed_keeps_hostMayRun (snapValue s) (hostMayRun_after_rdSnap hs)
  refine ⟨_, _, displayRun_of_hostMayRun hs, displayRun_of_hostMayRun ht,
    displayedLed_idem (snapValue s) s.led, rfl, fun q => ?_⟩
  have hbit := displayedLed_getLsbD (snapValue s) s.led q.isLt
  simp only [snapPosition_snapValue, snapDirection_snapValue, prevPosition_toNat,
    BitVec.toNat_inj] at hbit
  exact hbit

/-! ## The rollover's writes -/

/-- The state the reaction to a rollover leaves, where there is one: `execAll_rolloverWrites`. -/
def rolledOver (v : RegVal) (s : State) : State :=
  if snapRollover v then
    { clearRollover true (setSpeed (snapSpeed v + 1) s) with ip := s.ip + 2 }
  else s

theorem speedOperand_setWidth : ∀ l : BitVec 2, speedOperand (l.setWidth 8) = l := by decide

theorem wrSpeed_wellFormed : ∀ l : BitVec 2, WellFormed (.wrSpeed (l.setWidth 8)) = true := by
  decide

theorem execAll_rolloverWrites (v : RegVal) (hs : HostMayRun s) :
    execAll (rolloverWrites v) s = .next (rolledOver v s) := by
  unfold rolloverWrites rolledOver
  split_ifs
  · rw [execAll_pair_of_writes rfl rfl (wrSpeed_wellFormed _) rfl (by simp) hs, completed, completed,
      speedOperand_setWidth]
    rfl
  · rfl

theorem rolloverRun_of_hostMayRun (hs : HostMayRun s) :
    rolloverRun s = .next (rolledOver (snapValue s) (completed .rdSnap s)) :=
  (afterSnapshot_of_hostMayRun _ hs).trans
    (execAll_rolloverWrites _ (hostMayRun_after_rdSnap hs))

theorem speed_succ : ∀ l : BitVec 2, l + 1 = BitVec.ofNat 2 ((l.toNat + 1) % 4) := by decide

/-- Settles O58: the snapshot's ROLLOVER decides, and its level is the one stepped. -/
theorem rolloverProcedureStepsTheSpeed : Obligations.RolloverProcedureStepsTheSpeed := by
  refine fun s hs => ⟨fun hr => ⟨_, rolloverRun_of_hostMayRun hs, ?_⟩,
    fun hr => ⟨_, rolloverRun_of_hostMayRun hs, ?_⟩⟩
  · rw [rolledOver, if_pos (by simp [hr]), snapSpeed_snapValue, speed_succ]
    rfl
  · rw [rolledOver, if_neg (by simp [hr])]
    rfl

/-! ## An iteration -/

theorem iterationRun_of_hostMayRun (hs : HostMayRun s) :
    iterationRun s =
      .next (rolledOver (snapValue s) (displayed (snapValue s) (completed .rdSnap s))) := by
  have hsnap := hostMayRun_after_rdSnap hs
  rw [iterationRun, afterSnapshot_of_hostMayRun _ hs,
    execAll_append_of_next (execAll_displayWrites _ hsnap)]
  exact execAll_rolloverWrites _ (displayed_keeps_hostMayRun _ hsnap)

/-- Settles O59: the two procedures write different fields, and IP moves by both. -/
theorem iterationIsDisplayThenRollover : Obligations.IterationIsDisplayThenRollover := by
  refine fun s hs => ⟨_, _, _, iterationRun_of_hostMayRun hs, displayRun_of_hostMayRun hs,
    rolloverRun_of_hostMayRun hs, ?_⟩
  simp only [rolledOver, snapRollover_snapValue]
  split_ifs <;> rfl

end Sys2Proof.Safety
end

section
/-! Faults (R203): a fault is taken at the word's turn and changes FAULT alone, and no enabling condition
holds after it. -/

namespace Sys2Proof.Safety

open Sys2Proof.Machine

variable {s : State} {r : FaultRecord}

/-- Every enabling condition asks that FAULT be none (R105, R150, R122). -/
theorem whenEnabled_of_faulted (hf : s.fault = some r) (i : Instr) (k : Result) :
    whenEnabled i s k = .fault (.faulted r) := by
  cases i <;> exact whenRunning_of_some hf

/-- Not even RESET runs once FAULT is set (R104, R203). -/
theorem exec_of_faulted (hf : s.fault = some r) (i : Instr) : exec i s = .fault (.faulted r) := by
  obtain ⟨w, hx⟩ := exec_eq_whenEnabled i
  rw [hx, whenEnabled_of_faulted hf]

theorem not_final_of_faulted (hf : s.fault = some r) : ¬ Final s :=
  fun hfinal => Option.some_ne_none r (hf.symm.trans hfinal.noFault)

/-- Settles O31: with no request the word's turn costs nothing, at a choice point it uses up the schedule's
entry; after the fault no operation is enabled. -/
theorem faultIsPreciseAndSticky : Obligations.FaultIsPreciseAndSticky := by
  refine ⟨fun s w c hf hw hd => ⟨fun ha => ?_, fun v rest ha hh hs => ?_⟩,
    fun s r hf => ⟨step_of_faulted hf, not_final_of_faulted hf, exec_of_faulted hf⟩⟩
  · rw [step_of_badWord hf (nextAction_of_no_request ha hw) hd, takeTurn_of_idle_arbiter ha]
    rfl
  · rw [step_of_badWord hf (nextAction_of_word_turn ha hw hh hs) hd,
      takeTurn_of_choice (choicePoint_of_request ha hw hh) hs]
    rfl

end Sys2Proof.Safety
end

section
/-! Startup and the hazards software must respect (R231, R241, R244, R246), and the tick rate the
platform's duty gives (R250). -/

namespace Sys2Proof.Safety

open Sys2Proof.Machine

variable {s : State} {i : Instr} {P : BitVec 4}

/-! ## The tick rate -/

theorem ticksIn_succ_of_atReload (n : Nat) (hc : s.timCen = true)
    (hr : s.tcnt.toNat = s.treload.toNat) :
    ticksIn (n + 1) s = ticksIn n (timerPulse s) + 1 := by
  rw [ticksIn, hc, (atReload_iff s).mpr hr, Nat.add_comm]
  rfl

theorem ticksIn_succ_of_not_atReload (n : Nat) (hr : s.tcnt.toNat ≠ s.treload.toNat) :
    ticksIn (n + 1) s = ticksIn n (timerPulse s) := by
  rw [ticksIn, eq_false_of_ne_true (mt (atReload_iff s).mp hr), Bool.and_false]
  exact Nat.zero_add _

/-- Since the count was last 0, every TRELOAD + 1 pulses have ticked once (R101). -/
theorem ticksIn_eq_div (n : Nat) (hc : s.timCen = true) (hle : s.tcnt.toNat ≤ s.treload.toNat) :
    ticksIn n s = (s.tcnt.toNat + n) / (s.treload.toNat + 1) := by
  induction n generalizing s with
  | zero => exact (Nat.div_eq_of_lt (Nat.lt_succ_of_le hle)).symm
  | succ n ih =>
    by_cases hr : s.tcnt.toNat = s.treload.toNat
    · have hperiod : s.tcnt.toNat + (n + 1) = (0 + n) + (s.treload.toNat + 1) := by omega
      rw [ticksIn_succ_of_atReload n hc hr, timerPulse_of_atReload hc hr, hperiod,
        Nat.add_div_right _ (Nat.succ_pos _)]
      exact congrArg (· + 1) (ih hc (Nat.zero_le _))
    · have hcount : (s.tcnt + 1).toNat = s.tcnt.toNat + 1 := by bv_omega
      have hbelow : (s.tcnt + 1).toNat ≤ s.treload.toNat := by omega
      have hpulse : s.tcnt.toNat + (n + 1) = (s.tcnt + 1).toNat + n := by omega
      rw [ticksIn_succ_of_not_atReload n hr, timerPulse_of_not_atReload hc hr, hpulse]
      exact ih (s := { s with tcnt := s.tcnt + 1 }) hc hbelow

/-- Settles O5: under the duty a second of pulses is RATE(SPEED_LEVEL) whole periods. -/
theorem oneSecondOfPulsesTicksAtTheRate : Obligations.OneSecondOfPulsesTicksAtTheRate := by
  intro s hduty hr hc h0
  rw [ticksIn_eq_div _ hc (h0 ▸ Nat.zero_le _), h0, Nat.zero_add, ← hduty s.speedLevel, hr,
    Nat.mul_div_cancel_left _ (Nat.succ_pos _)]

/-! ## Absorbed millisecond ticks -/

theorem exec_mstick_of_enabled (hf : s.fault = none) (he : s.msEn = true) :
    exec .mstick s = .next { s with msPend := true, ip := s.ip + 1 } := by
  rw [mstickLatchesWhenEnabled.2 s hf, if_pos he]

/-- A latched tick absorbs the next one (R26, R244). -/
theorem exec_mstick_of_latched (hf : s.fault = none) (hp : s.msPend = true) :
    exec .mstick s = .next { s with ip := s.ip + 1 } := by
  rw [mstickLatchesWhenEnabled.2 s hf, hp, ite_self, ← hp]

theorem exec_mstick_of_disabled (hf : s.fault = none) (he : s.msEn = false) :
    exec .mstick s = .next { s with ip := s.ip + 1 } := by
  rw [mstickLatchesWhenEnabled.2 s hf, if_neg (ne_true_of_eq_false he)]

/-- Settles O8: the first tick latches, the second finds the latch set, and the one service step counts
once and clears it. -/
theorem secondMstickIsAbsorbed : Obligations.SecondMstickIsAbsorbed := by
  refine fun s hf => ⟨fun he => ?_, fun he => ?_⟩
  · obtain ⟨-, hserves⟩ := svcMsCountsMilliseconds
    exact ⟨_, _, _, exec_mstick_of_enabled hf he, rfl, exec_mstick_of_latched hf rfl, rfl, rfl, rfl,
      hserves _ hf rfl he, Nat.mod_eq_of_lt (Nat.mod_lt _ (Nat.two_pow_pos 32)), rfl, rfl⟩
  · have hsecond := exec_mstick_of_disabled (s := { s with ip := s.ip + 1 }) hf he
    simp only [execAll, exec_mstick_of_disabled hf he, hsecond]

/-! ## Latched flags under new enables -/

/-- Settles O30: the write sets the enables alone, and a request is the old flag under its new enable. -/
theorem latchedFlagsSurviveEnableChanges : Obligations.LatchedFlagsSurviveEnableChanges := by
  intro s d hs hd
  obtain ⟨-, hruns, -⟩ := wrCtrlSetsTheEnables s d hs
  exact ⟨_, hruns hd, rfl, rfl, rfl, rfl, rfl, rfl, rfl, rfl⟩

/-! ## The display's premise -/

/-- What a display run leaves of each line (R170). -/
theorem lit_displayed (s : State) (q : BitVec 4) :
    lit (displayed (snapValue s) (completed .rdSnap s)) q =
      if q = s.position then true
      else if q = prevPosition s.position s.direction then false
      else lit s q := by
  have hbit := displayedLed_getLsbD (snapValue s) s.led q.isLt
  simp only [snapPosition_snapValue, snapDirection_snapValue, BitVec.toNat_inj] at hbit
  exact hbit

/-- A line the display run names in neither of its two writes stays as it was. -/
theorem lit_displayed_of_far
    (hfar : ¬(s.position = P ∨ prevPosition s.position s.direction = P)) :
    lit (displayed (snapValue s) (completed .rdSnap s)) P = lit s P := by
  obtain ⟨hpos, hprev⟩ := not_or.mp hfar
  rw [lit_displayed, if_neg (Ne.symm hpos), if_neg (Ne.symm hprev)]

theorem lit_displayed_position (s : State) :
    lit (displayed (snapValue s) (completed .rdSnap s)) s.position = true := by
  rw [lit_displayed, if_pos rfl]

/-- R241: the old lit line is turned off, or is the current one, exactly under the premise. -/
theorem onlyLit_displayed_iff (hlit : OnlyLit s P) :
    OnlyLit (displayed (snapValue s) (completed .rdSnap s)) s.position ↔
      s.position = P ∨ prevPosition s.position s.direction = P := by
  constructor
  · intro honly
    by_contra hfar
    have hold := lit_displayed_of_far hfar
    rw [(hlit P).mpr rfl] at hold
    exact hfar (.inl ((honly P).mp hold).symm)
  · intro hnear q
    rw [lit_displayed]
    split_ifs with hpos hprev
    · exact iff_of_true rfl hpos
    · exact iff_of_false id hpos
    · rw [hlit q]
      refine iff_of_false (fun hq => ?_) hpos
      obtain h | h := hnear
      · exact hpos (hq.trans h.symm)
      · exact hprev (hq.trans h.symm)

/-- Settles O57: the run turns on the current line, turns off the previous one and leaves the rest. -/
theorem displayKeepsOneLitUnderItsPremise : Obligations.DisplayKeepsOneLitUnderItsPremise :=
  fun s P hs hlit => ⟨_, displayRun_of_hostMayRun hs, onlyLit_displayed_iff hlit,
    fun hfar => ⟨(lit_displayed_of_far hfar).trans ((hlit P).mpr rfl), lit_displayed_position s⟩⟩

/-! ## Startup -/

/-- With no flag latched nothing requests, whatever the enables are (R120). -/
theorem hostMayRun_of_no_flag (hf : s.fault = none) (hp : pendingCount s = 0) : HostMayRun s := by
  simp only [pendingCount, Nat.add_eq_zero_iff, Bool.toNat_eq_zero] at hp
  obtain ⟨⟨⟨hms, htim⟩, hbtnl⟩, hbtnr⟩ := hp
  refine ⟨hf, (arbitrate_eq_none_iff s).mpr fun v => ?_⟩
  cases v <;> simp [request, hms, htim, hbtnl, hbtnr]

/-- No write latches or clears a flag (R152). -/
theorem pendingCount_write (hi : isWrite i = true) :
    pendingCount (completed i s) = pendingCount s := by
  cases i with
  | wrStatus | wrSpeed | wrCtrl | wrLedset | wrLedclr => rfl
  | _ => cases hi

/-- With no flag latched legal writes all run, CTRL writes among them: none can raise a request. -/
theorem execAll_writes_of_no_flag (is : List Instr)
    (his : ∀ i ∈ is, isWrite i = true ∧ WellFormed i = true)
    (hf : s.fault = none) (hp : pendingCount s = 0) :
    execAll is s = .next (is.foldl (fun u i => completed i u) s) := by
  induction is generalizing s with
  | nil => rfl
  | cons i is ih =>
    obtain ⟨⟨hi, hw⟩, his⟩ := List.forall_mem_cons.mp his
    have hrun := exec_of_hostMayRun (.inr hi) hw (hostMayRun_of_no_flag hf hp)
    simp only [execAll, hrun, List.foldl_cons]
    exact ih his (completed_fault.trans hf) ((pendingCount_write hi).trans hp)

/-- The state the startup words leave: `execAll_startupSequence`. -/
def startedUp (s : State) : State :=
  { s with
    msEn := true, timIe := true, timCen := true, btnlIe := true, btnrIe := true
    speedLevel := 0, treload := s.reload 0, tcnt := 0, ip := s.ip + 5 }

/-- The last CTRL write decides the enables, and the one SPEED write the level. -/
theorem execAll_startupSequence (hf : s.fault = none) (hp : pendingCount s = 0) :
    execAll startupSequence s = .next (startedUp s) := by
  rw [execAll_writes_of_no_flag startupSequence (by decide) hf hp]
  simp [startupSequence, completed, consume, setEnables, setSpeed, startedUp,
    speedOperand, State.reload]

theorem ctrlValue_startedUp (s : State) : ctrlValue (startedUp s) = 0x1F := by
  rw [ctrlValue_eq]
  rfl

/-- Settles O55: the startup words are writes, and with no flag latched neither they nor the read are
held. -/
theorem startupEnablesEverySource : Obligations.StartupEnablesEverySource := fun s hf hp =>
  ⟨startedUp s, execAll_startupSequence hf hp, rfl,
    readStep_appends (hostMayRun_of_no_flag (s := startedUp s) hf hp) (ctrlValue_startedUp s)⟩

end Sys2Proof.Safety
end
